-- ==== Sys2Proof/Word.lean ====
section
/-! DEFINITION. The word types of the machine (00_scope.md R9: XLEN = 8, PCLEN = 16, byte size 8; 20_memory.md R60).
All arithmetic on them is BitVec arithmetic, that is, modulo 2^w (00_scope.md R10). -/

namespace Sys2Proof

/-- A data byte: the width of A, X, Y, S, P and of every bus transfer (R9, R69). -/
abbrev Byte := BitVec 8

/-- A CPU bus address, and PC (R9). -/
abbrev Word := BitVec 16

/-- A PPU bus address (20_memory.md R60(b)). -/
abbrev PpuAddr := BitVec 14

end Sys2Proof
end

