-- ==== Sys2Proof/Config.lean ====
section
/-! DEFINITION. The implementation parameters of 00_scope.md R9: those the spec fixes are constants; those it
collects as open or selectable (92_eei_decisions.md, "Open parameters, collected") are fields of `Params`, which
State carries and no step writes (10_state.md R37), so a statement about every state holds for every value of them. -/

namespace Sys2Proof

/-- When the IRQ line is sampled (R9 `IRQ_POLL_MODEL`, 60_exceptions.md R494 and R496). -/
inductive IrqPollModel where
  /-- the default: at the end of every step (R494) -/
  | endOfStep
  /-- the alternative: after the bus cycle before the last one (R496) -/
  | penultimateCycle
  deriving DecidableEq, Repr

/-- The address a stall cycle re-reads (R9 `STALL_DUMMY_ADDR`, 50_bus.md R274). -/
inductive StallDummyAddr where
  /-- the default: the last completed CPU read -/
  | lastCompletedRead
  /-- the alternative: the read being delayed -/
  | currentRead
  deriving DecidableEq, Repr

/-- `FS_STEPS`: the five frame-sequencer offsets in CPU cycles (R9, 52_apu.md R372). -/
structure FsSteps where
  step1 : Nat
  step2 : Nat
  step3 : Nat
  step4 : Nat
  step5 : Nat
  deriving DecidableEq, Repr

/-- The parameters a machine is built with (R9); fixed at construction (R37). -/
structure Params where
  irqPollModel : IrqPollModel
  stallDummyAddr : StallDummyAddr
  /-- `ANE_CONST`, OPEN (46_unofficial.md R249) -/
  aneConst : Byte
  /-- `LXA_CONST`, OPEN (R250) -/
  lxaConst : Byte
  /-- `A12_MIN_GAP` in PPU dots, OPEN (53_cartridge_mappers.md R452) -/
  a12MinGap : Nat
  fsSteps : FsSteps
  /-- `PPU_OPEN_BUS_DECAY_DOTS` (51_ppu.md R312) -/
  openBusDecayDots : Nat
  /-- `CPU_CLOCK_HZ` (52_apu.md R407) -/
  cpuClockHz : Nat
  /-- `SAMPLE_RATE` (R407) -/
  sampleRate : Nat
  deriving DecidableEq, Repr

namespace Config

/-- `ANE_CONST` has no stated value (92 D7): a free value, nothing constrains it (log entry 3). -/
opaque aneConst : Byte

/-- `LXA_CONST` has no stated value (92 D7): a free value (log entry 3). -/
opaque lxaConst : Byte

/-- `A12_MIN_GAP` has no stated value (92 D29): a free value (log entry 4). -/
opaque a12MinGap : Nat

/-- `DMC_STALL` (R9): CPU cycles of stall for each DMC byte. -/
def dmcStall : Nat := 4

/-- `PRG_RAM_SIZE` (R9, 92 D28). -/
def prgRamSize : Nat := 8192

/-- The default parameters: R9's values, the free values above where R9 says OPEN. -/
def params : Params where
  irqPollModel := .endOfStep
  stallDummyAddr := .lastCompletedRead
  aneConst := aneConst
  lxaConst := lxaConst
  a12MinGap := a12MinGap
  fsSteps := ⟨7458, 14915, 22372, 29831, 37282⟩
  openBusDecayDots := 3221591
  cpuClockHz := 1789773
  sampleRate := 44100

end Config

end Sys2Proof
end

