-- ==== Sys2Proof/Syntax.lean ====
section
/-! DEFINITION. The instructions (30_encoding.md R105 to R107): one constructor for each instruction of
spec/opcode_table.json, its addressing mode an argument where the table gives it several rows, its opcode byte an
argument where the table gives one form several opcode bytes. The opcode byte alone determines the instruction
(R100); the operand bytes are read by the instruction's own bus cycles (31_addressing_modes.md R123 to R133), each
with a tick and side effects, so they are no part of `Instr`: `Operand` (Decode.lean) holds them for encoding. -/

namespace Sys2Proof

/-- The addressing modes that form an effective address in memory (R104, 31_addressing_modes.md R124 to R132). -/
inductive AddrMode where
  | zeropage
  | zeropageX
  | zeropageY
  | absolute
  | absoluteX
  | absoluteY
  | indexedIndirect
  | indirectIndexed
  deriving DecidableEq, Repr

/-- Where a read-class instruction takes its operand from (R123 or R124 to R132). -/
inductive ReadMode where
  | immediate
  | mem (m : AddrMode)
  deriving DecidableEq, Repr

/-- The operand of a shift or rotate: A (R122) or memory. -/
inductive RmwMode where
  | accumulator
  | mem (m : AddrMode)
  deriving DecidableEq, Repr

/-- The two forms of JMP (44_control_flow.md R206, R207). -/
inductive JmpMode where
  | absolute
  | indirect
  deriving DecidableEq, Repr

/-- The two forms of SHA (46_unofficial.md R252). -/
inductive ShaMode where
  | absoluteY
  | indirectIndexed
  deriving DecidableEq, Repr

/-- The instruction set. Names are the table's mnemonics in lower case. -/
inductive Instr where
  -- load and store (40_load_store.md)
  | lda (m : ReadMode)
  | ldx (m : ReadMode)
  | ldy (m : ReadMode)
  | sta (m : AddrMode)
  | stx (m : AddrMode)
  | sty (m : AddrMode)
  -- transfer and stack (41_transfer_stack.md)
  | tax
  | tay
  | txa
  | tya
  | tsx
  | txs
  | pha
  | php
  | pla
  | plp
  -- logic, arithmetic, compare (42_alu.md)
  | ora (m : ReadMode)
  | and (m : ReadMode)
  | eor (m : ReadMode)
  | adc (m : ReadMode)
  | sbc (m : ReadMode)
  | cmp (m : ReadMode)
  | cpx (m : ReadMode)
  | cpy (m : ReadMode)
  | bit (m : AddrMode)
  -- shift, rotate, increment, decrement (43_rmw.md)
  | asl (m : RmwMode)
  | lsr (m : RmwMode)
  | rol (m : RmwMode)
  | ror (m : RmwMode)
  | inc (m : AddrMode)
  | dec (m : AddrMode)
  | inx
  | iny
  | dex
  | dey
  -- control flow (44_control_flow.md)
  | jmp (m : JmpMode)
  | jsr
  | rts
  | rti
  | brk
  | bpl
  | bmi
  | bvc
  | bvs
  | bcc
  | bcs
  | bne
  | beq
  -- flags and the official NOP (45_flags_nop.md)
  | clc
  | sec
  | cli
  | sei
  | clv
  | cld
  | sed
  | nop
  -- unofficial (46_unofficial.md)
  | slo (m : AddrMode)
  | rla (m : AddrMode)
  | sre (m : AddrMode)
  | rra (m : AddrMode)
  | dcp (m : AddrMode)
  | isc (m : AddrMode)
  | sax (m : AddrMode)
  | lax (m : AddrMode)
  | anc (op : Byte)
  | alr
  | arr
  | axs
  | ane
  | lxa
  | sbcUnofficial
  | sha (m : ShaMode)
  | shx
  | shy
  | shs
  | las
  | nopImplied (op : Byte)
  | nopImmediate (op : Byte)
  | nopZeropage (op : Byte)
  | nopZeropageX (op : Byte)
  | nopAbsolute
  | nopAbsoluteX (op : Byte)
  | jam (op : Byte)
  deriving DecidableEq, Repr

end Sys2Proof
end

