-- ==== Sys2Proof/Machine/State.lean ====
section
/-! DEFINITION. Everything the spec gives the machine as state (10_state.md R20 to R35, R59; the mapper variants of
53_cartridge_mappers.md R432 to R470), as plain data, and the state after reset (70_reset_and_hazards.md R532).
`State` keeps apart what a tick may change (`dev`), what only a bus write may change (`mem`), the CPU's registers
(`cpu`), and what no step writes (`params`, `cart`: R37). A field's docstring gives the spec's own name for it. -/

namespace Sys2Proof.Machine

/-! ### Memories -/

/-- A sparse memory: (index, value) pairs, indexes strictly rising, no value equal to what an unlisted index reads as
(`Cells.wf`, Memory.lean). An unlisted index reads as 0 (log entry 5). -/
abbrev Cells (w : Nat) := List (Nat × BitVec w)

/-- A byte memory. -/
abbrev Memory := List Host.Cell

/-- Nametable mirroring modes (20_memory.md R66). -/
inductive Mirroring where
  | horizontal
  | vertical
  | singleScreenLo
  | singleScreenHi
  deriving DecidableEq, Repr

/-- The memories that only a bus write changes. -/
structure Memories where
  /-- `bus.ram[0..2047]` (R26) -/
  ram : Memory
  /-- `cart.prg_ram`, `PRG_RAM_SIZE` bytes (R33) -/
  prgRam : Memory
  /-- `cart.chr`: CHR-ROM or 8 KB CHR-RAM (R33) -/
  chr : Memory
  /-- `ppu.vram[0..2047]` (R28) -/
  vram : Memory
  /-- `ppu.palette[0..31]` (R28) -/
  palette : Memory
  /-- `ppu.oam[0..255]` (R28) -/
  oam : Memory
  /-- MMC5 `exram[0..1023]` (R461) -/
  exRam : Memory
  deriving DecidableEq, Repr

/-- The cartridge image as loaded (R33, R37, R421, R422): no step writes it. -/
structure Cart where
  /-- `cart.prg_rom`, indexed by byte offset -/
  prgRom : Memory
  /-- `prg_banks`: PRG-ROM size in 16 KB units -/
  prgBanks : Nat
  /-- size of `cart.chr` in 8 KB units (1 when it is CHR-RAM) -/
  chrBanks : Nat
  /-- `cart.chr_is_ram` -/
  chrIsRam : Bool
  /-- `cart.mirror_hdr` -/
  mirrorHdr : Mirroring
  deriving DecidableEq, Repr

/-! ### CPU (R20 to R25) -/

/-- The registers, and the hidden CPU state that only the CPU writes (R24). -/
structure Cpu where
  a : Byte
  x : Byte
  y : Byte
  /-- stack pointer -/
  s : Byte
  /-- status: bit 0 C, 1 Z, 2 I, 3 D, 4 B (stored 0), 5 U (stored 1), 6 V, 7 N (R22, R23) -/
  p : Byte
  pc : Word
  /-- `cpu.irq_latch` -/
  irqLatch : Bool
  /-- `cpu.jammed` -/
  jammed : Bool
  deriving DecidableEq, Repr

/-- The IRQ poll of the last and of the last but one CPU cycle of the current step: used by
`IRQ_POLL_MODEL = penultimate_cycle` only (60_exceptions.md R496); the model's own (log entry 9). -/
structure IrqPoll where
  last : Bool
  prev : Bool
  deriving DecidableEq, Repr

/-! ### PPU (R27, R29) -/

/-- The scroll registers (R27). -/
structure Scroll where
  v : BitVec 15
  t : BitVec 15
  x : BitVec 3
  w : Bool
  deriving DecidableEq, Repr

/-- The open-bus latch `ppu.io_latch` and the ages `ppu.io_age[0..7]` of its bits, bit 0 first (R27). -/
structure OpenBus where
  latch : Byte
  ages : List Nat
  deriving DecidableEq, Repr

/-- The raster position and the counters (R29). -/
structure Raster where
  /-- -1 (pre-render) to 260 -/
  scanline : Int
  /-- 0 to 340 -/
  dot : Nat
  oddFrame : Bool
  frame : Nat
  /-- `ppu.clock` -/
  clock : Nat
  deriving DecidableEq, Repr

/-- Background fetch latches and shift registers (R29). -/
structure BgPipe where
  ntLatch : Byte
  atLatch : BitVec 2
  ptLoLatch : Byte
  ptHiLatch : Byte
  patLo : BitVec 16
  patHi : BitVec 16
  attLo : BitVec 16
  attHi : BitVec 16
  deriving DecidableEq, Repr

/-- One sprite of the line being drawn: `ppu.spr_pat_lo[s]`, `spr_pat_hi[s]`, `spr_attr[s]`, `spr_x[s]` (R29). -/
structure SpriteSlot where
  patLo : Byte
  patHi : Byte
  attr : Byte
  x : Byte
  deriving DecidableEq, Repr

/-- Sprite evaluation and sprite pipeline (R28, R29). -/
structure SpritePipe where
  /-- `ppu.sec_oam[0..31]` -/
  secOam : List Byte
  secCount : Nat
  secHasZero : Bool
  /-- `ppu.spr_count` -/
  count : Nat
  /-- the eight slots -/
  slots : List SpriteSlot
  /-- `ppu.spr_zero_on_line` -/
  zeroOnLine : Bool
  /-- the low pattern byte of the slot being fetched, between its two fetches (51_ppu.md R332): the model's own -/
  fetchLo : Byte
  deriving DecidableEq, Repr

/-- The PPU. -/
structure Ppu where
  ctrl : Byte
  mask : Byte
  vblank : Bool
  sprite0Hit : Bool
  spriteOverflow : Bool
  oamAddr : Byte
  readBuffer : Byte
  openBus : OpenBus
  /-- `ppu.vbl_age`, saturating at 255 -/
  vblAge : Nat
  scroll : Scroll
  raster : Raster
  bg : BgPipe
  spr : SpritePipe
  /-- `ppu.bus_addr` -/
  busAddr : PpuAddr
  /-- `ppu.nmi_level` -/
  nmiLevel : Bool
  /-- `ppu.frame_buffer`, entry `256 * scanline + x` -/
  frameBuffer : Cells 9
  deriving DecidableEq, Repr

/-! ### APU (R30 to R32) -/

/-- The envelope of a pulse or noise channel (R31; `halt` is also the envelope loop). -/
structure Envelope where
  halt : Bool
  constVol : Bool
  vol : BitVec 4
  /-- `env_start` -/
  start : Bool
  /-- `env_div` -/
  div : BitVec 4
  /-- `env_decay` -/
  decay : BitVec 4
  deriving DecidableEq, Repr

/-- `apu.pulse[n]` (R31). -/
structure Pulse where
  enabled : Bool
  duty : BitVec 2
  dutyPos : BitVec 3
  env : Envelope
  sweepEn : Bool
  sweepPeriod : BitVec 3
  sweepNeg : Bool
  sweepShift : BitVec 3
  sweepReload : Bool
  sweepDiv : BitVec 3
  timerPeriod : BitVec 11
  timer : BitVec 11
  length : Byte
  deriving DecidableEq, Repr

/-- `apu.tri` (R31). -/
structure Triangle where
  enabled : Bool
  control : Bool
  linReloadVal : BitVec 7
  linCounter : BitVec 7
  linReload : Bool
  timerPeriod : BitVec 11
  timer : BitVec 11
  seqPos : BitVec 5
  length : Byte
  deriving DecidableEq, Repr

/-- `apu.noise` (R31). -/
structure Noise where
  enabled : Bool
  env : Envelope
  /-- tap mode bit of `$400E` -/
  mode : Bool
  periodIdx : BitVec 4
  timer : BitVec 12
  lfsr : BitVec 15
  length : Byte
  deriving DecidableEq, Repr

/-- `apu.dmc` (R31). -/
structure Dmc where
  irqEn : Bool
  loop : Bool
  rateIdx : BitVec 4
  timer : BitVec 9
  level : BitVec 7
  addrReg : Byte
  lenReg : Byte
  curAddr : Word
  bytesLeft : BitVec 12
  buffer : Byte
  bufferFull : Bool
  shift : Byte
  bitsLeft : BitVec 4
  silence : Bool
  deriving DecidableEq, Repr

/-- The frame sequencer (R30). -/
structure FrameSequencer where
  /-- `apu.fs_mode`: true = 5-step -/
  mode5 : Bool
  irqInhibit : Bool
  cycle : Nat
  deriving DecidableEq, Repr

/-- The output stage (R32). Real numbers are exact rationals (`MIX_NUMERICS`, log entry 6). -/
structure OutputStage where
  accSum : Rat
  accCount : Nat
  /-- `apu.phase`, in units of 1 / `SAMPLE_RATE` CPU cycle -/
  phase : Nat
  hpfPrevIn : Rat
  hpfPrevOut : Rat
  /-- the PCM samples emitted since construction, newest first: the stream owed to the host (00_scope.md R18) -/
  pcm : List (BitVec 16)
  deriving DecidableEq, Repr

/-- The APU. -/
structure Apu where
  seq : FrameSequencer
  /-- `apu.frame_irq` -/
  frameIrq : Bool
  /-- `apu.dmc_irq` -/
  dmcIrq : Bool
  pulse1 : Pulse
  pulse2 : Pulse
  tri : Triangle
  noise : Noise
  dmc : Dmc
  out : OutputStage
  deriving DecidableEq, Repr

/-! ### Mapper variants (R34) -/

/-- MMC1 (R436). -/
structure Mmc1 where
  shift : BitVec 5
  count : Nat
  control : BitVec 5
  chr0 : BitVec 5
  chr1 : BitVec 5
  prg : BitVec 5
  /-- `last_write_cycle`, `none` at power-on -/
  lastWriteCycle : Option Nat
  deriving DecidableEq, Repr

/-- The value of an MMC2 or MMC4 CHR latch (R441). -/
inductive ChrLatch where
  | fd
  | fe
  deriving DecidableEq, Repr

/-- MMC2 and MMC4 (R441). -/
structure Mmc2 where
  prg : BitVec 4
  chrFd0 : BitVec 5
  chrFe0 : BitVec 5
  chrFd1 : BitVec 5
  chrFe1 : BitVec 5
  /-- false Vertical, true Horizontal -/
  mirror : Bool
  latch0 : ChrLatch
  latch1 : ChrLatch
  deriving DecidableEq, Repr

/-- MMC3 (R448). -/
structure Mmc3 where
  bankSelect : Byte
  /-- `r[0..7]` -/
  r : List Byte
  /-- false Vertical, true Horizontal -/
  mirror : Bool
  ramProtect : Byte
  irqLatch : Byte
  irqCounter : Byte
  irqReload : Bool
  irqEnabled : Bool
  irqPending : Bool
  a12 : Bool
  a12LowSince : Nat
  deriving DecidableEq, Repr

/-- Which CHR register set was written last (R461). -/
inductive ChrSet where
  | a
  | b
  deriving DecidableEq, Repr

/-- The MMC5 registers that are stored and have no effect (R461). -/
structure Mmc5Stored where
  r5102 : Byte
  r5103 : Byte
  r5130 : Byte
  r5200 : Byte
  r5201 : Byte
  r5202 : Byte
  deriving DecidableEq, Repr

/-- MMC5 (R461); `exram` is `Memories.exRam`. -/
structure Mmc5 where
  prgMode : BitVec 2
  chrMode : BitVec 2
  exramMode : BitVec 2
  ntMap : Byte
  fillTile : Byte
  fillAttr : BitVec 2
  prgRamBank : BitVec 3
  /-- `prg[0..3]` -/
  prg : List Byte
  /-- `chr_a[0..7]` -/
  chrA : List Byte
  /-- `chr_b[0..3]` -/
  chrB : List Byte
  lastChrSet : ChrSet
  irqTarget : Byte
  irqEnabled : Bool
  irqPending : Bool
  inFrame : Bool
  scanCounter : Byte
  lastNtAddr : Option PpuAddr
  lastDetect : Nat
  mulA : Byte
  mulB : Byte
  stored : Mmc5Stored
  deriving DecidableEq, Repr

/-- The mapper variant and its registers (R431). -/
inductive Mapper where
  | nrom
  | mmc1 (m : Mmc1)
  | uxrom (bank : Byte)
  | cnrom (chrBank : Byte)
  | mmc3 (m : Mmc3)
  | mmc5 (m : Mmc5)
  | axrom (reg : Byte)
  | mmc2 (m : Mmc2)
  | mmc4 (m : Mmc2)
  | camerica (bank : Byte)
  deriving DecidableEq, Repr

/-! ### Joypads (R35) -/

/-- One joypad port. `buttons` is the host's input. -/
structure Joypad where
  buttons : Byte
  shift : Byte
  strobe : Bool
  deriving DecidableEq, Repr

/-! ### The machine -/

/-- What a `Tick` or a bus read may change: the bus counters, the wires to the CPU, and the devices. -/
structure Devices where
  /-- `bus.cycles` (R26) -/
  cycles : Nat
  /-- `bus.data_latch` (R26) -/
  dataLatch : Byte
  /-- `cpu.last_read_addr` (R24) -/
  lastReadAddr : Word
  /-- `cpu.stall` (R24) -/
  stall : Nat
  /-- `cpu.nmi_request` (R24) -/
  nmiRequest : Bool
  ppu : Ppu
  apu : Apu
  mapper : Mapper
  joy1 : Joypad
  joy2 : Joypad
  deriving DecidableEq, Repr

/-- The whole machine (R59). -/
structure State where
  params : Params
  cart : Cart
  cpu : Cpu
  poll : IrqPoll
  mem : Memories
  dev : Devices
  deriving DecidableEq, Repr

/-- Why the machine stops with a fault: never. The spec gives this machine no fault mechanism (60_exceptions.md R492;
93_implementation_defined.md, end of Part 1), so no definition of the model raises one. -/
inductive Fault where
  deriving DecidableEq, Repr

/-- Why an instruction is refused. -/
inductive Refusal where
  /-- Raised by an arm of `exec` whose instruction has no meaning yet; no arm is left in that condition. Safe. -/
  | notModelled (mnemonic : String)
  deriving DecidableEq, Repr

/-! ### Power-on values (construction: R530 and the "reset" columns of R25 to R35) -/

/-- R25. -/
def Cpu.powerOn : Cpu where
  a := 0#8
  x := 0#8
  y := 0#8
  s := 0x00#8
  p := 0x20#8
  pc := 0x0000#16
  irqLatch := false
  jammed := false

/-- R27 to R29: everything 0 but `sec_oam`; `vbl_age` saturated; scanline 0, dot 0. No row gives the model's own
`spr.fetchLo`: 0 is the model's choice (log entry 11). -/
def Ppu.powerOn : Ppu where
  ctrl := 0#8
  mask := 0#8
  vblank := false
  sprite0Hit := false
  spriteOverflow := false
  oamAddr := 0#8
  readBuffer := 0#8
  openBus := ⟨0#8, List.replicate 8 0⟩
  vblAge := 255
  scroll := ⟨0#15, 0#15, 0#3, false⟩
  raster := ⟨0, 0, false, 0, 0⟩
  bg := ⟨0#8, 0#2, 0#8, 0#8, 0#16, 0#16, 0#16, 0#16⟩
  spr := ⟨List.replicate 32 0xFF#8, 0, false, 0, List.replicate 8 ⟨0#8, 0#8, 0#8, 0#8⟩, false, 0#8⟩
  busAddr := 0#14
  nmiLevel := false
  frameBuffer := []

/-- R31. -/
def Envelope.powerOn : Envelope := ⟨false, false, 0#4, false, 0#4, 0#4⟩

/-- R31. -/
def Pulse.powerOn : Pulse :=
  ⟨false, 0#2, 0#3, Envelope.powerOn, false, 0#3, false, 0#3, false, 0#3, 0#11, 0#11, 0#8⟩

/-- R30 to R32, R415: all 0 except `noise.lfsr` = 1, `dmc.bits_left` = 8, `dmc.silence` = 1. -/
def Apu.powerOn : Apu where
  seq := ⟨false, false, 0⟩
  frameIrq := false
  dmcIrq := false
  pulse1 := Pulse.powerOn
  pulse2 := Pulse.powerOn
  tri := ⟨false, false, 0#7, 0#7, false, 0#11, 0#11, 0#5, 0#8⟩
  noise := ⟨false, Envelope.powerOn, false, 0#4, 0#12, 1#15, 0#8⟩
  dmc := ⟨false, false, 0#4, 0#9, 0#7, 0#8, 0#8, 0#16, 0#12, 0#8, false, 0#8, 8#4, true⟩
  out := ⟨0, 0, 0, 0, 0, []⟩

/-- R35, R484. -/
def Joypad.powerOn : Joypad := ⟨0#8, 0#8, false⟩

/-- The memories at power-on (R26, R28, R33, R461): all 0 (RAM_INIT at its default, log entry 5); `chr` from the
image. -/
def Memories.powerOn (chr : Memory) : Memories := ⟨[], [], chr, [], [], [], []⟩

/-- The machine as constructed around a cartridge (R530), before `Reset` has run. -/
def State.powerOn (params : Params) (cart : Cart) (chr : Memory) (mapper : Mapper) : State where
  params := params
  cart := cart
  cpu := Cpu.powerOn
  poll := ⟨false, false⟩
  mem := Memories.powerOn chr
  dev :=
    { cycles := 0, dataLatch := 0#8, lastReadAddr := 0#16, stall := 0, nmiRequest := false, ppu := Ppu.powerOn,
      apu := Apu.powerOn, mapper := mapper, joy1 := Joypad.powerOn, joy2 := Joypad.powerOn }

/-! ### The state after reset -/

/-- A blank NROM cartridge: 32 KB of PRG-ROM reading 0, 8 KB CHR-RAM, vertical mirroring (95_test_vectors.md,
Conventions). It stands in State.reset where the spec has the host's image (log entry 2). -/
def Cart.blank : Cart := ⟨[], 2, 1, true, .vertical⟩

/-- The machine right after the first `Reset` (R532), with the blank cartridge: the reset vector reads 0x0000. Values
R532 does not name follow from its seven cycles (log entry 1). -/
def State.reset : State where
  params := Config.params
  cart := Cart.blank
  cpu := { a := 0#8, x := 0#8, y := 0#8, s := 0xFD#8, p := 0x24#8, pc := 0x0000#16, irqLatch := false, jammed := false }
  poll := ⟨false, false⟩
  mem := Memories.powerOn []
  dev :=
    { cycles := 7
      dataLatch := 0#8
      lastReadAddr := 0xFFFD#16
      stall := 0
      nmiRequest := false
      ppu := { Ppu.powerOn with
        openBus := ⟨0#8, List.replicate 8 21⟩
        raster := ⟨0, 21, false, 0, 21⟩ }
      apu := { Apu.powerOn with seq := ⟨false, false, 7⟩ }
      mapper := .nrom
      joy1 := Joypad.powerOn
      joy2 := Joypad.powerOn }

end Sys2Proof.Machine
end

