-- ==== Sys2Proof/Machine/Bits.lean ====
section
/-! DEFINITION. Bit-field and byte-order helpers (00_scope.md R10, R13; 20_memory.md R67). -/

namespace Sys2Proof.Machine

/-- `lo(w)` = `w[7:0]` (R10). -/
def lo (w : Word) : Byte := w.extractLsb' 0 8

/-- `hi(w)` = `w[15:8]` (R10). -/
def hi (w : Word) : Byte := w.extractLsb' 8 8

/-- `h : l`, a 16-bit word from its bytes (R10). -/
def cat (h l : Byte) : Word := h ++ l

/-- `zext_16` (R13). -/
def zext (b : Byte) : Word := b.setWidth 16

/-- `sext_16` (R13). -/
def sext (b : Byte) : Word := b.signExtend 16

/-- Bit `k` of a vector as a Bool. -/
def bitOf {w : Nat} (v : BitVec w) (k : Nat) : Bool := v.getLsbD k

/-- A Bool as one bit in place `k` of a byte. -/
def bitAt (b : Bool) (k : Nat) : Byte := if b then 1#8 <<< k else 0#8

/-- The bits of `v` chosen by `mask` replaced by those of `new`. -/
def merge {w : Nat} (mask v new : BitVec w) : BitVec w := (v &&& ~~~mask) ||| (new &&& mask)

/-- A byte with its bit order reversed (51_ppu.md R332, horizontal flip). -/
def reverseByte (b : Byte) : Byte := b.reverse

end Sys2Proof.Machine
end

