-- ==== Sys2Proof/Machine/Memory.lean ====
section
/-! DEFINITION. Sparse memories in canonical form: indexes strictly rising, no listed value 0. An index that is not
listed reads as 0 (log entry 5). Every memory of the machine is read and written through these two operations. -/

namespace Sys2Proof.Machine

/-- What an unlisted index reads as. -/
def Cells.unlisted (w : Nat) : BitVec w := 0#w

/-- The value at index `a`. -/
def Cells.read {w : Nat} : Cells w → Nat → BitVec w
  | [], _ => Cells.unlisted w
  | (k, v) :: rest, a => if k = a then v else Cells.read rest a

/-- `m` with `v` at index `a`, in canonical form. -/
def Cells.write {w : Nat} : Cells w → Nat → BitVec w → Cells w
  | [], a, v => if v = Cells.unlisted w then [] else [(a, v)]
  | (k, x) :: rest, a, v =>
    if a < k then
      if v = Cells.unlisted w then (k, x) :: rest else (a, v) :: (k, x) :: rest
    else if a = k then
      if v = Cells.unlisted w then rest else (a, v) :: rest
    else (k, x) :: Cells.write rest a v

/-- Every listed index is at least `n`, indexes rise strictly, and no listed value is the unlisted one. -/
def Cells.wfFrom {w : Nat} : Nat → Cells w → Bool
  | _, [] => true
  | n, (k, v) :: rest => decide (n ≤ k) && decide (v ≠ Cells.unlisted w) && Cells.wfFrom (k + 1) rest

/-- The canonical form. -/
def Cells.wf {w : Nat} (m : Cells w) : Bool := Cells.wfFrom 0 m

/-- The byte at index `a` of a byte memory. -/
def Memory.read (m : Memory) (a : Nat) : Byte := Cells.read m a

/-- A byte memory with `v` at index `a`. -/
def Memory.write (m : Memory) (a : Nat) (v : Byte) : Memory := Cells.write m a v

/-- The canonical form of a byte memory. -/
def Memory.wf (m : Memory) : Bool := Cells.wf m

/-- The canonical memory that holds `bytes` from index `at_` on. -/
def Memory.ofBytes : Nat → List Byte → Memory
  | _, [] => []
  | a, b :: rest => if b = 0#8 then Memory.ofBytes (a + 1) rest else (a, b) :: Memory.ofBytes (a + 1) rest

/-- Every memory of the machine is in canonical form. -/
def Memories.wf (m : Memories) : Bool :=
  m.ram.wf && m.prgRam.wf && m.chr.wf && m.vram.wf && m.palette.wf && m.oam.wf && m.exRam.wf

/-! ### Locations: one byte of one memory -/

/-- The memories of the machine that can be stored to. -/
inductive MemKind where
  | ram
  | prgRam
  | chr
  | vram
  | palette
  | oam
  | exRam
  deriving DecidableEq, Repr

/-- One byte of one memory. -/
structure Location where
  kind : MemKind
  index : Nat
  deriving DecidableEq, Repr

/-- The memory of a kind. -/
def Memories.get (m : Memories) : MemKind → Memory
  | .ram => m.ram
  | .prgRam => m.prgRam
  | .chr => m.chr
  | .vram => m.vram
  | .palette => m.palette
  | .oam => m.oam
  | .exRam => m.exRam

/-- The byte at a location. -/
def Memories.byteAt (m : Memories) (l : Location) : Byte := (m.get l.kind).read l.index

/-- What a location keeps of a written byte: attribute bytes of OAM have no bits 4..2 (51_ppu.md R306), palette entries
six bits (R316). -/
def Location.kept (l : Location) (v : Byte) : Byte :=
  match l.kind with
  | .oam => if l.index % 4 = 2 then v &&& 0xE3#8 else v
  | .palette => v &&& 0x3F#8
  | _ => v

/-- The memories with `v` written at a location. -/
def Memories.store (m : Memories) (l : Location) (v : Byte) : Memories :=
  match l.kind with
  | .ram => { m with ram := m.ram.write l.index (l.kept v) }
  | .prgRam => { m with prgRam := m.prgRam.write l.index (l.kept v) }
  | .chr => { m with chr := m.chr.write l.index (l.kept v) }
  | .vram => { m with vram := m.vram.write l.index (l.kept v) }
  | .palette => { m with palette := m.palette.write l.index (l.kept v) }
  | .oam => { m with oam := m.oam.write l.index (l.kept v) }
  | .exRam => { m with exRam := m.exRam.write l.index (l.kept v) }

/-- The memories after a write that may store nowhere. -/
def Memories.storeAt (m : Memories) (l : Option Location) (v : Byte) : Memories :=
  match l with
  | none => m
  | some l => m.store l v

/-- What the devices may read and no tick may change: the parameters, the cartridge image and the memories. -/
structure Env where
  params : Params
  cart : Cart
  mem : Memories
  deriving DecidableEq, Repr

/-- The environment of a state. -/
def State.env (s : State) : Env := ⟨s.params, s.cart, s.mem⟩

end Sys2Proof.Machine
end

