-- ==== Sys2Proof/Machine/Apu.lean ====
section
/-! DEFINITION. The APU (52_apu.md R360 to R415): registers, frame sequencer, length counters, envelopes, sweeps, the
five channels, mixer and output stage. The DMC's fetch, which reads the bus, is in Bus.lean. -/

namespace Sys2Proof.Machine

/-! ### Tables -/

/-- `LENGTH` (R380). -/
def lengthTable : List Byte :=
  [10#8, 254#8, 20#8, 2#8, 40#8, 4#8, 80#8, 6#8, 160#8, 8#8, 60#8, 10#8, 14#8, 12#8, 26#8, 14#8] ++
  [12#8, 16#8, 24#8, 18#8, 48#8, 20#8, 96#8, 22#8, 192#8, 24#8, 72#8, 26#8, 16#8, 28#8, 32#8, 30#8]

/-- `DUTY` (R384). -/
def dutyTable : List (List Nat) :=
  [[0, 1, 0, 0, 0, 0, 0, 0], [0, 1, 1, 0, 0, 0, 0, 0], [0, 1, 1, 1, 1, 0, 0, 0], [1, 0, 0, 1, 1, 1, 1, 1]]

/-- `TRI` (R388). -/
def triTable (pos : Nat) : Nat := if pos < 16 then 15 - pos else pos - 16

/-- `NOISE_PERIOD` (R391). -/
def noisePeriodTable : List Nat :=
  [4, 8, 16, 32, 64, 96, 128, 160, 202, 254, 380, 508, 762, 1016, 2034, 4068]

/-- `DMC_RATE` (R396). -/
def dmcRateTable : List Nat :=
  [428, 380, 340, 320, 286, 254, 226, 214, 190, 160, 142, 128, 106, 84, 72, 54]

/-- `LENGTH[d[7:3]]`. -/
def lengthOf (d : Byte) : Byte := lengthTable.getD (d.toNat / 8) 0#8

/-! ### Units (R379, R381, R383, R385, R388, R389, R391, R392) -/

/-- Length counter clock (R379). -/
def clockLength (halt : Bool) (n : Byte) : Byte := if n ≠ 0#8 ∧ ¬halt then n - 1#8 else n

/-- Envelope clock (R381). -/
def Envelope.clock (e : Envelope) : Envelope :=
  if e.start then { e with start := false, decay := 15#4, div := e.vol }
  else if e.div = 0#4 then
    { e with
      div := e.vol
      decay := if e.decay ≠ 0#4 then e.decay - 1#4 else if e.halt then 15#4 else e.decay }
  else { e with div := e.div - 1#4 }

/-- `Volume` (R381). -/
def Envelope.volume (e : Envelope) : BitVec 4 := if e.constVol then e.vol else e.decay

/-- The write of a `$4000`, `$4004` or `$400C` byte to the envelope (R364, R366). -/
def Envelope.control (e : Envelope) (d : Byte) : Envelope :=
  { e with halt := bitOf d 5, constVol := bitOf d 4, vol := d.setWidth 4 }

/-- Pulse timer (R383). -/
def Pulse.clockTimer (p : Pulse) : Pulse :=
  if p.timer = 0#11 then { p with timer := p.timerPeriod, dutyPos := p.dutyPos + 1#3 }
  else { p with timer := p.timer - 1#11 }

/-- Sweep target (R385); `first` is pulse 1, `n = 0`. Natural-number subtraction is the clamp at 0. -/
def Pulse.target (p : Pulse) (first : Bool) : Nat :=
  let r := p.timerPeriod.toNat
  let c := r >>> p.sweepShift.toNat
  if p.sweepNeg then r - c - first.toNat else r + c

/-- R385. -/
def Pulse.muted (p : Pulse) (first : Bool) : Bool :=
  decide (p.timerPeriod.toNat < 8) || decide (0x7FF < p.target first)

/-- Sweep clock (R385). -/
def Pulse.clockSweep (p : Pulse) (first : Bool) : Pulse :=
  let p1 :=
    if p.sweepDiv = 0#3 ∧ p.sweepEn ∧ p.sweepShift ≠ 0#3 ∧ ¬p.muted first then
      { p with timerPeriod := BitVec.ofNat 11 (p.target first) }
    else p
  if p1.sweepDiv = 0#3 ∨ p1.sweepReload then { p1 with sweepDiv := p1.sweepPeriod, sweepReload := false }
  else { p1 with sweepDiv := p1.sweepDiv - 1#3 }

/-- Pulse output (R386). -/
def Pulse.out (p : Pulse) (first : Bool) : Nat :=
  if (dutyTable.getD p.duty.toNat []).getD p.dutyPos.toNat 0 = 0 ∨ p.length = 0#8 ∨ p.muted first then 0
  else p.env.volume.toNat

/-- Triangle timer (R388). -/
def Triangle.clockTimer (t : Triangle) : Triangle :=
  if t.timer = 0#11 then
    { t with
      timer := t.timerPeriod
      seqPos := if t.length ≠ 0#8 ∧ t.linCounter ≠ 0#7 then t.seqPos + 1#5 else t.seqPos }
  else { t with timer := t.timer - 1#11 }

/-- Linear counter clock (R389). -/
def Triangle.clockLinear (t : Triangle) : Triangle :=
  { t with
    linCounter :=
      if t.linReload then t.linReloadVal else if t.linCounter ≠ 0#7 then t.linCounter - 1#7 else t.linCounter
    linReload := t.linReload && t.control }

/-- Triangle output (R388): it holds its last value when gated. -/
def Triangle.out (t : Triangle) : Nat := triTable t.seqPos.toNat

/-- Shift of the noise LFSR (R392). -/
def Noise.shiftLfsr (z : Noise) : BitVec 15 :=
  let fb := bitOf z.lfsr 0 ^^ (if z.mode then bitOf z.lfsr 6 else bitOf z.lfsr 1)
  (z.lfsr >>> 1) ||| (if fb then 0x4000#15 else 0#15)

/-- Noise timer (R391). -/
def Noise.clockTimer (z : Noise) : Noise :=
  if z.timer = 0#12 then
    { z with timer := BitVec.ofNat 12 (noisePeriodTable.getD z.periodIdx.toNat 0 - 1), lfsr := z.shiftLfsr }
  else { z with timer := z.timer - 1#12 }

/-- Noise output (R392). -/
def Noise.out (z : Noise) : Nat := if bitOf z.lfsr 0 ∨ z.length = 0#8 then 0 else z.env.volume.toNat

/-! ### DMC (R396 to R398) -/

/-- The output level after one shifted bit (R397). -/
def Dmc.nextLevel (m : Dmc) : BitVec 7 :=
  if m.silence then m.level
  else if bitOf m.shift 0 then (if m.level.toNat ≤ 125 then m.level + 2#7 else m.level)
  else (if 2 ≤ m.level.toNat then m.level - 2#7 else m.level)

/-- `OutputClock()` (R397). -/
def Dmc.outputClock (m : Dmc) : Dmc :=
  let m1 := { m with level := m.nextLevel, shift := m.shift >>> 1, bitsLeft := m.bitsLeft - 1#4 }
  if m1.bitsLeft = 0#4 then
    if m1.bufferFull then { m1 with bitsLeft := 8#4, silence := false, shift := m1.buffer, bufferFull := false }
    else { m1 with bitsLeft := 8#4, silence := true }
  else m1

/-- DMC timer (R396). -/
def Dmc.clockTimer (m : Dmc) : Dmc :=
  if m.timer = 0#9 then
    { m with timer := BitVec.ofNat 9 (dmcRateTable.getD m.rateIdx.toNat 0 - 1) }.outputClock
  else { m with timer := m.timer - 1#9 }

/-- `RestartSample()` (R398, R367). -/
def Dmc.restartSample (m : Dmc) : Dmc :=
  { m with
    curAddr := 0xC000#16 ||| (m.addrReg.setWidth 16 <<< 6)
    bytesLeft := (m.lenReg.setWidth 12 <<< 4) ||| 1#12 }

/-- The refill check's condition (R398). -/
def Dmc.wantsByte (m : Dmc) : Bool := !m.bufferFull && m.bytesLeft != 0#12

/-- The DMC with the fetched byte `v` in its buffer; the Bool says that the sample is exhausted and raises the IRQ
(R398). -/
def Dmc.deliver (m : Dmc) (v : Byte) : Dmc × Bool :=
  let m1 :=
    { m with
      buffer := v
      bufferFull := true
      curAddr := if m.curAddr = 0xFFFF#16 then 0x8000#16 else m.curAddr + 1#16
      bytesLeft := m.bytesLeft - 1#12 }
  if m1.bytesLeft = 0#12 then
    if m1.loop then (m1.restartSample, false) else (m1, m1.irqEn)
  else (m1, false)

/-! ### Frame sequencer (R372 to R375) -/

/-- `QuarterFrame()` (R374). -/
def Apu.quarterFrame (a : Apu) : Apu :=
  { a with
    pulse1 := { a.pulse1 with env := a.pulse1.env.clock }
    pulse2 := { a.pulse2 with env := a.pulse2.env.clock }
    noise := { a.noise with env := a.noise.env.clock }
    tri := a.tri.clockLinear }

/-- Length clock of a pulse channel. -/
def Pulse.clockLength (p : Pulse) : Pulse := { p with length := Machine.clockLength p.env.halt p.length }

/-- `HalfFrame()` (R375). -/
def Apu.halfFrame (a : Apu) : Apu :=
  { a with
    pulse1 := a.pulse1.clockLength.clockSweep true
    pulse2 := a.pulse2.clockLength.clockSweep false
    tri := { a.tri with length := Machine.clockLength a.tri.control a.tri.length }
    noise := { a.noise with length := Machine.clockLength a.noise.env.halt a.noise.length } }

/-- Restart the sequencer's cycle count. -/
def Apu.restartSequencer (a : Apu) : Apu := { a with seq := { a.seq with cycle := 0 } }

/-- The frame sequencer's tick (R372). -/
def Apu.clockSequencer (f : FsSteps) (a : Apu) : Apu :=
  let a1 := { a with seq := { a.seq with cycle := a.seq.cycle + 1 } }
  let c := a1.seq.cycle
  if c = f.step1 ∨ c = f.step3 then a1.quarterFrame
  else if c = f.step2 then a1.quarterFrame.halfFrame
  else if a1.seq.mode5 then
    if c = f.step5 then a1.quarterFrame.halfFrame.restartSequencer else a1
  else if c = f.step4 then
    let a2 := a1.quarterFrame.halfFrame.restartSequencer
    { a2 with frameIrq := a2.frameIrq || !a2.seq.irqInhibit }
  else a1

/-- The channel timers (R371 step 2): the pulses' on even bus cycles. -/
def Apu.clockTimers (even : Bool) (a : Apu) : Apu :=
  { a with
    pulse1 := if even then a.pulse1.clockTimer else a.pulse1
    pulse2 := if even then a.pulse2.clockTimer else a.pulse2
    tri := a.tri.clockTimer
    noise := a.noise.clockTimer
    dmc := a.dmc.clockTimer }

/-! ### Mixer and output stage (R405, R407): exact rational arithmetic (log entry 6) -/

/-- `pulse_table` (R405). -/
def pulseTable (n : Nat) : Rat := if n = 0 then 0 else (9552 / 100 : Rat) / (8128 / (n : Rat) + 100)

/-- `tnd_table` (R405). -/
def tndTable (n : Nat) : Rat := if n = 0 then 0 else (16367 / 100 : Rat) / (24329 / (n : Rat) + 100)

/-- `Mix()` (R405). -/
def Apu.mix (a : Apu) : Rat :=
  pulseTable (a.pulse1.out true + a.pulse2.out false) +
    tndTable (3 * a.tri.out + 2 * a.noise.out + a.dmc.level.toNat)

/-- `clamp(round(y * 32767), -32768, 32767)` as 16-bit PCM, halves rounded up (R407; log entry 6). -/
def quantize (y : Rat) : BitVec 16 :=
  BitVec.ofInt 16 (max (-32768) (min 32767 ((y * 32767 + 1 / 2 : Rat).floor)))

/-- The output stage for one CPU cycle with sample `x` (R407); `phase` counts in units of 1 / `SAMPLE_RATE`. -/
def OutputStage.push (clockHz sampleRate : Nat) (o : OutputStage) (x : Rat) : OutputStage :=
  let sum := o.accSum + x
  let count := o.accCount + 1
  let phase := o.phase + sampleRate
  if clockHz ≤ phase then
    let avg := sum / (count : Rat)
    let y := (996 / 1000 : Rat) * (o.hpfPrevOut + avg - o.hpfPrevIn)
    { accSum := 0, accCount := 0, phase := phase - clockHz, hpfPrevIn := avg, hpfPrevOut := y, pcm := quantize y :: o.pcm }
  else { o with accSum := sum, accCount := count, phase := phase }

/-- Mixer and output stage of one cycle (R371 step 4). -/
def Apu.output (p : Params) (a : Apu) : Apu := { a with out := a.out.push p.cpuClockHz p.sampleRate a.mix }

/-! ### Registers (R363 to R370) -/

/-- `timer_period[7:0] <- d`. -/
def periodLow (t : BitVec 11) (d : Byte) : BitVec 11 := merge 0xFF#11 t (d.setWidth 11)

/-- `timer_period[10:8] <- d[2:0]`. -/
def periodHigh (t : BitVec 11) (d : Byte) : BitVec 11 := merge 0x700#11 t (d.setWidth 11 <<< 8)

/-- The four registers of a pulse channel, `r = a & 3` (R364). -/
def Pulse.writeReg (p : Pulse) (r : Nat) (d : Byte) : Pulse :=
  match r with
  | 0 => { p with duty := d.extractLsb' 6 2, env := p.env.control d }
  | 1 =>
    { p with
      sweepEn := bitOf d 7, sweepPeriod := d.extractLsb' 4 3, sweepNeg := bitOf d 3, sweepShift := d.setWidth 3
      sweepReload := true }
  | 2 => { p with timerPeriod := periodLow p.timerPeriod d }
  | _ =>
    { p with
      timerPeriod := periodHigh p.timerPeriod d
      length := if p.enabled then lengthOf d else p.length
      dutyPos := 0#3
      env := { p.env with start := true } }

/-- The triangle's registers, `r = a & 3` (R365). -/
def Triangle.writeReg (t : Triangle) (r : Nat) (d : Byte) : Triangle :=
  match r with
  | 0 => { t with control := bitOf d 7, linReloadVal := d.setWidth 7 }
  | 1 => t
  | 2 => { t with timerPeriod := periodLow t.timerPeriod d }
  | _ =>
    { t with
      timerPeriod := periodHigh t.timerPeriod d
      length := if t.enabled then lengthOf d else t.length
      linReload := true }

/-- The noise channel's registers, `r = a & 3` (R366). -/
def Noise.writeReg (z : Noise) (r : Nat) (d : Byte) : Noise :=
  match r with
  | 0 => { z with env := z.env.control d }
  | 1 => z
  | 2 => { z with mode := bitOf d 7, periodIdx := d.setWidth 4 }
  | _ =>
    { z with length := if z.enabled then lengthOf d else z.length, env := { z.env with start := true } }

/-- The DMC's registers, `r = a & 3` (R367). -/
def Apu.writeDmc (a : Apu) (r : Nat) (d : Byte) : Apu :=
  match r with
  | 0 =>
    { a with
      dmc := { a.dmc with irqEn := bitOf d 7, loop := bitOf d 6, rateIdx := d.setWidth 4 }
      dmcIrq := a.dmcIrq && bitOf d 7 }
  | 1 => { a with dmc := { a.dmc with level := d.setWidth 7 } }
  | 2 => { a with dmc := { a.dmc with addrReg := d } }
  | _ => { a with dmc := { a.dmc with lenReg := d } }

/-- The DMC part of a `$4015` write (R368). -/
def Dmc.enable (m : Dmc) (on : Bool) : Dmc :=
  if on then (if m.bytesLeft = 0#12 then m.restartSample else m) else { m with bytesLeft := 0#12 }

/-- `$4015` write, but for the refill check that follows it (R368; Bus.lean). -/
def Apu.writeEnables (a : Apu) (d : Byte) : Apu :=
  { a with
    pulse1 := { a.pulse1 with enabled := bitOf d 0, length := if bitOf d 0 then a.pulse1.length else 0#8 }
    pulse2 := { a.pulse2 with enabled := bitOf d 1, length := if bitOf d 1 then a.pulse2.length else 0#8 }
    tri := { a.tri with enabled := bitOf d 2, length := if bitOf d 2 then a.tri.length else 0#8 }
    noise := { a.noise with enabled := bitOf d 3, length := if bitOf d 3 then a.noise.length else 0#8 }
    dmcIrq := false
    dmc := a.dmc.enable (bitOf d 4) }

/-- `$4017` write (R370). -/
def Apu.writeFrameCounter (a : Apu) (d : Byte) : Apu :=
  let a1 := { a with seq := ⟨bitOf d 7, bitOf d 6, 0⟩, frameIrq := a.frameIrq && !bitOf d 6 }
  if bitOf d 7 then a1.quarterFrame.halfFrame else a1

/-- `apu.RegWrite(a, d)` for `$4000-$4013`, `$4015`, `$4017` (R363); `r` is the address less 0x4000. -/
def Apu.writeReg (a : Apu) (r : Nat) (d : Byte) : Apu :=
  if r < 4 then { a with pulse1 := a.pulse1.writeReg r d }
  else if r < 8 then { a with pulse2 := a.pulse2.writeReg (r - 4) d }
  else if r < 12 then { a with tri := a.tri.writeReg (r - 8) d }
  else if r < 16 then { a with noise := a.noise.writeReg (r - 12) d }
  else if r < 20 then a.writeDmc (r - 16) d
  else if r = 21 then a.writeEnables d
  else if r = 23 then a.writeFrameCounter d
  else a

/-- The byte a `$4015` read returns (R369). -/
def Apu.status (a : Apu) : Byte :=
  bitAt a.dmcIrq 7 ||| bitAt a.frameIrq 6 ||| bitAt (a.dmc.bytesLeft != 0#12) 4 ||| bitAt (a.noise.length != 0#8) 3 |||
    bitAt (a.tri.length != 0#8) 2 ||| bitAt (a.pulse2.length != 0#8) 1 ||| bitAt (a.pulse1.length != 0#8) 0

/-- The effect of a `$4015` read: the frame IRQ is acknowledged (R369). -/
def Apu.afterStatusRead (a : Apu) : Apu := { a with frameIrq := false }

/-- `apu.IrqActive` (R412). -/
def Apu.irqActive (a : Apu) : Bool := a.frameIrq || a.dmcIrq

/-- Warm reset (R415): a `$4015` write of 0, the frame IRQ cleared, the sequencer restarted in its mode. -/
def Apu.warmReset (a : Apu) : Apu :=
  let a1 := a.writeEnables 0#8
  { a1 with frameIrq := false, seq := { a1.seq with cycle := 0 } }

end Sys2Proof.Machine
end

