-- ==== Sys2Proof/Machine/Joypad.lean ====
section
/-! DEFINITION. The joypad ports (54_joypad.md R480 to R484). -/

namespace Sys2Proof.Machine

/-- `joy.Write(v)` (R482). -/
def Joypad.write (j : Joypad) (v : Byte) : Joypad :=
  { j with shift := if j.strobe || bitOf v 0 then j.buttons else j.shift, strobe := bitOf v 0 }

/-- The bit the next read returns (R483, 20_memory.md R74). -/
def Joypad.nextBit (j : Joypad) : Byte := if j.strobe then j.buttons &&& 1#8 else j.shift &&& 1#8

/-- `joy.Read(open_bus_bits)` (R483). -/
def Joypad.read (j : Joypad) (openBusBits : Byte) : Byte × Joypad :=
  ((openBusBits &&& 0xE0#8) ||| j.nextBit,
   { j with shift := if j.strobe then j.buttons else (j.shift >>> 1) ||| 0x80#8 })

end Sys2Proof.Machine
end

