-- ==== Sys2Proof/Machine/Mapper.lean ====
section
/-! DEFINITION. The mapper family (53_cartridge_mappers.md R425 to R470): address translation, register writes,
mirroring, IRQ counters. Each variant's rules are named at its clause. -/

namespace Sys2Proof.Machine

/-! ### Bank arithmetic (R430) -/

/-- How many banks of size `S` a memory of `N` bytes has; at least one, so that a memory smaller than the window is
repeated in it (log entry 12). -/
def bankCount (N S : Nat) : Nat := max 1 (N / S)

/-- The offset bank `b` of size `S` gives address `a` in a memory of `N` bytes (R430). -/
def bankOffset (N S b a : Nat) : Nat := ((b % bankCount N S) * S + a % S) % N

/-- Bank `-k` of a memory with `n` banks: `-1` is the last (R430). -/
def bankFromEnd (n k : Nat) : Nat := (n - k % n) % n

/-- The offset of bank `-k`. -/
def bankOffsetFromEnd (N S k a : Nat) : Nat := bankOffset N S (bankFromEnd (bankCount N S) k) a

/-- PRG-ROM size in bytes (R421). -/
def Cart.prgSize (c : Cart) : Nat := c.prgBanks * 16384

/-- CHR size in bytes (R421). -/
def Cart.chrSize (c : Cart) : Nat := c.chrBanks * 8192

/-! ### Where a translated address lies (R425) -/

/-- A CPU-side location. -/
inductive PrgLoc where
  | rom (o : Nat)
  | ram (o : Nat)
  | exRam (o : Nat)
  /-- a readable mapper register and its value (MMC5 only) -/
  | reg (v : Byte)
  | unhandled
  deriving DecidableEq, Repr

/-- A PPU-side location. -/
inductive ChrLoc where
  | chr (o : Nat)
  | ciram (o : Nat)
  | exRam (o : Nat)
  /-- MMC5 fill mode and ExRAM that reads as 0: a constant -/
  | fill (v : Byte)
  | unhandled
  deriving DecidableEq, Repr

/-- The PRG-RAM window of every variant but MMC5 (R428). -/
def prgRamWindow (a : Nat) : PrgLoc := .ram ((a - 0x6000) % Config.prgRamSize)

/-! ### MMC5 (R460 to R467) -/

/-- The 8 KB window of a PRG address (R463). -/
def Mmc5.window (a : Nat) : Nat := (a / 8192) % 4

/-- Which `prg` register selects the window, and the window unit in 8 KB banks (R463). -/
def Mmc5.prgSelect (m : Mmc5) (w : Nat) : Nat × Nat :=
  match m.prgMode.toNat with
  | 0 => (3, 4)
  | 1 => (if w < 2 then 1 else 3, 2)
  | 2 => if w < 2 then (1, 2) else (w, 1)
  | _ => (w, 1)

/-- A bank number with its low bits replaced by the window's, for a unit of 1, 2 or 4 8 KB banks (R463). -/
def Mmc5.bankIn (b w unit : Nat) : Nat := b / unit * unit + w % unit

/-- PRG translation of 0x8000-0xFFFF (R463). -/
def Mmc5.prgLoc (m : Mmc5) (c : Cart) (a : Nat) : PrgLoc :=
  let w := Mmc5.window a
  let sel := m.prgSelect w
  let b := m.prg.getD sel.1 0#8
  if bitOf b 7 || sel.1 == 3 then
    .rom (bankOffset c.prgSize 8192 (Mmc5.bankIn (b &&& 0x7F#8).toNat w sel.2) a)
  else
    .ram ((Mmc5.bankIn (b &&& 0x07#8).toNat w sel.2 * 8192 + a % 8192) % Config.prgRamSize)

/-- CPU-side translation (R462). -/
def Mmc5.cpuLoc (m : Mmc5) (c : Cart) (a : Nat) : PrgLoc :=
  if a = 0x5204 then .reg (bitAt m.irqPending 7 ||| bitAt m.inFrame 6)
  else if a = 0x5205 then .reg (BitVec.ofNat 8 (m.mulA.toNat * m.mulB.toNat))
  else if a = 0x5206 then .reg (BitVec.ofNat 8 (m.mulA.toNat * m.mulB.toNat / 256))
  else if 0x5C00 ≤ a ∧ a < 0x6000 then .exRam (a - 0x5C00)
  else if 0x6000 ≤ a ∧ a < 0x8000 then .ram ((m.prgRamBank.toNat * 8192 + a % 8192) % Config.prgRamSize)
  else if 0x8000 ≤ a then m.prgLoc c a
  else .unhandled

/-- The register writes of 0x5100-0x5206 (R462); others are ignored. -/
def Mmc5.writeReg (m : Mmc5) (a : Nat) (v : Byte) : Mmc5 :=
  if a = 0x5100 then { m with prgMode := v.setWidth 2 }
  else if a = 0x5101 then { m with chrMode := v.setWidth 2 }
  else if a = 0x5102 then { m with stored := { m.stored with r5102 := v } }
  else if a = 0x5103 then { m with stored := { m.stored with r5103 := v } }
  else if a = 0x5104 then { m with exramMode := v.setWidth 2 }
  else if a = 0x5105 then { m with ntMap := v }
  else if a = 0x5106 then { m with fillTile := v }
  else if a = 0x5107 then { m with fillAttr := v.setWidth 2 }
  else if a = 0x5113 then { m with prgRamBank := v.setWidth 3 }
  else if 0x5114 ≤ a ∧ a ≤ 0x5117 then { m with prg := m.prg.set (a - 0x5114) v }
  else if 0x5120 ≤ a ∧ a ≤ 0x5127 then { m with chrA := m.chrA.set (a - 0x5120) v, lastChrSet := .a }
  else if 0x5128 ≤ a ∧ a ≤ 0x512B then { m with chrB := m.chrB.set (a - 0x5128) v, lastChrSet := .b }
  else if a = 0x5130 then { m with stored := { m.stored with r5130 := v } }
  else if a = 0x5200 then { m with stored := { m.stored with r5200 := v } }
  else if a = 0x5201 then { m with stored := { m.stored with r5201 := v } }
  else if a = 0x5202 then { m with stored := { m.stored with r5202 := v } }
  else if a = 0x5203 then { m with irqTarget := v }
  else if a = 0x5204 then { m with irqEnabled := bitOf v 7 }
  else if a = 0x5205 then { m with mulA := v }
  else if a = 0x5206 then { m with mulB := v }
  else m

/-- CHR bank register and unit for a pattern address (R463). -/
def Mmc5.chrSelect (m : Mmc5) (k : Nat) : Byte × Nat :=
  match m.lastChrSet, m.chrMode.toNat with
  | .a, 0 => (m.chrA.getD 7 0#8, 8192)
  | .a, 1 => (m.chrA.getD (if k < 4 then 3 else 7) 0#8, 4096)
  | .a, 2 => (m.chrA.getD (2 * (k / 2) + 1) 0#8, 2048)
  | .a, _ => (m.chrA.getD k 0#8, 1024)
  | .b, 0 => (m.chrB.getD 3 0#8, 8192)
  | .b, 1 => (m.chrB.getD 3 0#8, 4096)
  | .b, 2 => (m.chrB.getD (2 * (k / 2 % 2) + 1) 0#8, 2048)
  | .b, _ => (m.chrB.getD (k % 4) 0#8, 1024)

/-- A 2-bit attribute in all four fields of a byte (R464). -/
def replicateAttr (v : BitVec 2) : Byte := v ++ v ++ v ++ v

/-- Nametable translation for reads of 0x2000-0x3EFF (R464). -/
def Mmc5.ntReadLoc (m : Mmc5) (a : Nat) : ChrLoc :=
  let n := a / 1024 % 4
  let o := a % 1024
  match ((m.ntMap >>> (2 * n)).setWidth 2).toNat with
  | 0 => .ciram o
  | 1 => .ciram (0x400 + o)
  | 2 => if 2 ≤ m.exramMode.toNat then .fill 0#8 else .exRam o
  | _ => .fill (if o < 0x3C0 then m.fillTile else replicateAttr m.fillAttr)

/-- Nametable translation for writes: fill mode drops them (R464). -/
def Mmc5.ntWriteLoc (m : Mmc5) (a : Nat) : ChrLoc :=
  let n := a / 1024 % 4
  let o := a % 1024
  match ((m.ntMap >>> (2 * n)).setWidth 2).toNat with
  | 0 => .ciram o
  | 1 => .ciram (0x400 + o)
  | 2 => .exRam o
  | _ => .fill 0#8

/-- Scanline detection (R465). -/
def Mmc5.notify (m : Mmc5) (addr : PpuAddr) (c : Nat) : Mmc5 :=
  let isNt := decide (0x2000 ≤ addr.toNat ∧ addr.toNat < 0x3000)
  if isNt && m.lastNtAddr == some addr then
    let m' :=
      if !m.inFrame || decide (2 * 341 < c - m.lastDetect) then
        { m with inFrame := true, scanCounter := 0#8, irqPending := false }
      else
        let n := m.scanCounter + 1#8
        { m with scanCounter := n, irqPending := m.irqPending || (n == m.irqTarget && m.irqTarget != 0#8) }
    { m' with lastDetect := c, lastNtAddr := none }
  else { m with lastNtAddr := if isNt then some addr else none }

/-! ### MMC1 (R436 to R439) -/

/-- The serial port load that a fifth write completes (R436). -/
def Mmc1.load (m : Mmc1) (reg : Nat) (v : BitVec 5) : Mmc1 :=
  match reg with
  | 0 => { m with control := v }
  | 1 => { m with chr0 := v }
  | 2 => { m with chr1 := v }
  | _ => { m with prg := v }

/-- A write to 0x8000-0xFFFF in bus cycle `c` (R436). -/
def Mmc1.write (m : Mmc1) (a : Word) (v : Byte) (c : Nat) : Mmc1 :=
  let adjacent := match m.lastWriteCycle with
    | some l => decide (l + 1 = c)
    | none => false
  let m := { m with lastWriteCycle := some c }
  if adjacent then m
  else if bitOf v 7 then { m with shift := 0#5, count := 0, control := m.control ||| 0x0C#5 }
  else
    let sh : BitVec 5 := (m.shift >>> 1) ||| (if bitOf v 0 then 0x10#5 else 0#5)
    if m.count + 1 = 5 then { m.load (a.toNat / 8192 % 4) sh with shift := 0#5, count := 0 }
    else { m with shift := sh, count := m.count + 1 }

/-- PRG translation (R437). -/
def Mmc1.prgOffset (m : Mmc1) (c : Cart) (a : Nat) : Nat :=
  let N := c.prgSize
  match (m.control.extractLsb' 2 2).toNat with
  | 2 => if a < 0xC000 then bankOffset N 16384 0 a else bankOffset N 16384 (m.prg.setWidth 4).toNat a
  | 3 => if a < 0xC000 then bankOffset N 16384 (m.prg.setWidth 4).toNat a else bankOffsetFromEnd N 16384 1 a
  | _ => bankOffset N 32768 (m.prg.extractLsb' 1 3).toNat a

/-- CHR translation (R438). -/
def Mmc1.chrOffset (m : Mmc1) (c : Cart) (a : Nat) : Nat :=
  let N := c.chrSize
  if bitOf m.control 4 then
    if a < 0x1000 then bankOffset N 4096 m.chr0.toNat a else bankOffset N 4096 m.chr1.toNat a
  else bankOffset N 8192 (m.chr0.extractLsb' 1 4).toNat a

/-- Mirroring (R439). -/
def Mmc1.mirroring (m : Mmc1) : Mirroring :=
  match (m.control.setWidth 2).toNat with
  | 0 => .singleScreenLo
  | 1 => .singleScreenHi
  | 2 => .vertical
  | _ => .horizontal

/-! ### MMC2 and MMC4 (R441 to R443) -/

/-- Register writes, decoded on `a & 0xF000` (R441). -/
def Mmc2.write (m : Mmc2) (a : Word) (v : Byte) : Mmc2 :=
  match a.toNat / 4096 with
  | 0xA => { m with prg := v.setWidth 4 }
  | 0xB => { m with chrFd0 := v.setWidth 5 }
  | 0xC => { m with chrFe0 := v.setWidth 5 }
  | 0xD => { m with chrFd1 := v.setWidth 5 }
  | 0xE => { m with chrFe1 := v.setWidth 5 }
  | 0xF => { m with mirror := bitOf v 0 }
  | _ => m

/-- CHR translation with the current latches (R443). -/
def Mmc2.chrOffset (m : Mmc2) (c : Cart) (a : Nat) : Nat :=
  let b :=
    if a < 0x1000 then (match m.latch0 with | .fd => m.chrFd0 | .fe => m.chrFe0)
    else (match m.latch1 with | .fd => m.chrFd1 | .fe => m.chrFe1)
  bankOffset c.chrSize 4096 b.toNat a

/-- The latch update after a CHR read (R443): MMC2's `latch0` has single trigger addresses, MMC4's has ranges. -/
def Mmc2.latchAfterRead (m : Mmc2) (isMmc4 : Bool) (a : Nat) : Mmc2 :=
  let top (b : Nat) := if isMmc4 then b + 7 else b
  if 0x0FD8 ≤ a ∧ a ≤ top 0x0FD8 then { m with latch0 := .fd }
  else if 0x0FE8 ≤ a ∧ a ≤ top 0x0FE8 then { m with latch0 := .fe }
  else if 0x1FD8 ≤ a ∧ a ≤ 0x1FDF then { m with latch1 := .fd }
  else if 0x1FE8 ≤ a ∧ a ≤ 0x1FEF then { m with latch1 := .fe }
  else m

/-! ### MMC3 (R448 to R456) -/

/-- Register writes, decoded on `a & 0xE001` (R449). -/
def Mmc3.write (m : Mmc3) (a : Word) (v : Byte) : Mmc3 :=
  match (a &&& 0xE001#16).toNat with
  | 0x8000 => { m with bankSelect := v }
  | 0x8001 => { m with r := m.r.set (m.bankSelect.setWidth 3).toNat v }
  | 0xA000 => { m with mirror := bitOf v 0 }
  | 0xA001 => { m with ramProtect := v }
  | 0xC000 => { m with irqLatch := v }
  | 0xC001 => { m with irqCounter := 0#8, irqReload := true }
  | 0xE000 => { m with irqEnabled := false, irqPending := false }
  | 0xE001 => { m with irqEnabled := true }
  | _ => m

/-- PRG translation in 8 KB windows (R450). -/
def Mmc3.prgOffset (m : Mmc3) (c : Cart) (a : Nat) : Nat :=
  let N := c.prgSize
  let mode1 := bitOf m.bankSelect 6
  let r6 := (m.r.getD 6 0#8).toNat
  let r7 := (m.r.getD 7 0#8).toNat
  if a < 0xA000 then (if mode1 then bankOffsetFromEnd N 8192 2 a else bankOffset N 8192 r6 a)
  else if a < 0xC000 then bankOffset N 8192 r7 a
  else if a < 0xE000 then (if mode1 then bankOffset N 8192 r6 a else bankOffsetFromEnd N 8192 2 a)
  else bankOffsetFromEnd N 8192 1 a

/-- The 1 KB CHR bank of window `k`, CHR mode 0 (R451). -/
def Mmc3.chrBank (m : Mmc3) (k : Nat) : Byte :=
  match k with
  | 0 => m.r.getD 0 0#8 &&& 0xFE#8
  | 1 => m.r.getD 0 0#8 ||| 0x01#8
  | 2 => m.r.getD 1 0#8 &&& 0xFE#8
  | 3 => m.r.getD 1 0#8 ||| 0x01#8
  | 4 => m.r.getD 2 0#8
  | 5 => m.r.getD 3 0#8
  | 6 => m.r.getD 4 0#8
  | _ => m.r.getD 5 0#8

/-- CHR translation: CHR mode 1 swaps the two halves (R451). -/
def Mmc3.chrOffset (m : Mmc3) (c : Cart) (a : Nat) : Nat :=
  let k := a / 1024 % 8
  bankOffset c.chrSize 1024 (m.chrBank (if bitOf m.bankSelect 7 then (k + 4) % 8 else k)).toNat a

/-- `ClockIrqCounter()` (R453). -/
def Mmc3.clockIrq (m : Mmc3) : Mmc3 :=
  let m' :=
    if m.irqCounter == 0#8 || m.irqReload then { m with irqCounter := m.irqLatch, irqReload := false }
    else { m with irqCounter := m.irqCounter - 1#8 }
  { m' with irqPending := m'.irqPending || (m'.irqCounter == 0#8 && m'.irqEnabled) }

/-- The A12 filter (R452): `gap` is `A12_MIN_GAP`, `c` the PPU clock. -/
def Mmc3.notify (gap : Nat) (m : Mmc3) (addr : PpuAddr) (c : Nat) : Mmc3 :=
  let new := bitOf addr 12
  let m1 := if !new && m.a12 then { m with a12LowSince := c } else m
  let m2 := if new && !m.a12 && decide (gap ≤ c - m.a12LowSince) then m1.clockIrq else m1
  { m2 with a12 := new }

/-! ### The contract (R425 to R427) -/

/-- NROM and CNROM PRG: PRG-ROM repeated in 0x8000-0xFFFF (R432, R434). -/
def nromOffset (c : Cart) (a : Nat) : Nat := (a - 0x8000) % c.prgSize

/-- 16 KB bank `b` below, the last bank above (R433, R446). -/
def uxromOffset (c : Cart) (b a : Nat) : Nat :=
  if a < 0xC000 then bankOffset c.prgSize 16384 b a else bankOffsetFromEnd c.prgSize 16384 1 a

/-- PRG-ROM offset of an address in 0x8000-0xFFFF for the variants other than MMC5. -/
def Mapper.prgOffset (mp : Mapper) (c : Cart) (a : Nat) : Nat :=
  match mp with
  | .nrom => nromOffset c a
  | .mmc1 m => m.prgOffset c a
  | .uxrom bank => uxromOffset c bank.toNat a
  | .cnrom _ => nromOffset c a
  | .mmc3 m => m.prgOffset c a
  | .mmc5 _ => nromOffset c a
  | .axrom reg => bankOffset c.prgSize 32768 (reg.setWidth 3).toNat a
  | .mmc2 m =>
    if a < 0xA000 then bankOffset c.prgSize 8192 m.prg.toNat a
    else bankOffsetFromEnd c.prgSize 8192 (8 - (a / 8192)) a
  | .mmc4 m => uxromOffset c m.prg.toNat a
  | .camerica bank => uxromOffset c (bank.setWidth 4).toNat a

/-- `CpuMapRead`: where a CPU read of `a` goes (R426, R428). -/
def Mapper.cpuMap (mp : Mapper) (c : Cart) (a : Word) : PrgLoc :=
  match mp with
  | .mmc5 m => m.cpuLoc c a.toNat
  | _ =>
    if a.toNat < 0x6000 then .unhandled
    else if a.toNat < 0x8000 then prgRamWindow a.toNat
    else .rom (mp.prgOffset c a.toNat)

/-- `cart.CpuRead` without its side effect (R426): what `Peek` returns (20_memory.md R74). -/
def Mapper.cpuPeek (e : Env) (mp : Mapper) (a : Word) : Byte :=
  match mp.cpuMap e.cart a with
  | .rom o => e.cart.prgRom.read o
  | .ram o => e.mem.prgRam.read o
  | .exRam o => e.mem.exRam.read o
  | .reg v => v
  | .unhandled => 0#8

/-- The side effect of a CPU read: a read of MMC5's 0x5204 acknowledges its IRQ (R466). -/
def Mapper.afterCpuRead (mp : Mapper) (a : Word) : Mapper :=
  match mp with
  | .mmc5 m => if a = 0x5204#16 then .mmc5 { m with irqPending := false } else mp
  | _ => mp

/-- Where `CpuMapWrite` stores the written byte, if anywhere (R426, R428, R462): ROM is never written. -/
def Mapper.cpuStoreLoc (mp : Mapper) (c : Cart) (a : Word) : Option Location :=
  match mp.cpuMap c a with
  | .ram o => some ⟨.prgRam, o⟩
  | .exRam o => some ⟨.exRam, o⟩
  | _ => none

/-- The register update inside `CpuMapWrite` in bus cycle `c` (R432 to R436, R441, R446, R449, R462). -/
def Mapper.cpuWriteReg (mp : Mapper) (a : Word) (v : Byte) (c : Nat) : Mapper :=
  match mp with
  | .mmc5 m => .mmc5 (m.writeReg a.toNat v)
  | _ =>
    if a.toNat < 0x8000 then mp
    else match mp with
      | .nrom => mp
      | .mmc1 m => .mmc1 (m.write a v c)
      | .uxrom _ => .uxrom v
      | .cnrom _ => .cnrom v
      | .mmc3 m => .mmc3 (m.write a v)
      | .mmc5 _ => mp
      | .axrom _ => .axrom v
      | .mmc2 m => .mmc2 (m.write a v)
      | .mmc4 m => .mmc4 (m.write a v)
      | .camerica bank => if a.toNat < 0xC000 then .camerica bank else .camerica v

/-- CHR offset of a pattern-table address (R427 and each variant's CHR rule). -/
def Mapper.chrOffset (mp : Mapper) (c : Cart) (a : Nat) : Nat :=
  match mp with
  | .nrom | .uxrom _ | .axrom _ | .camerica _ => bankOffset c.chrSize 8192 0 a
  | .mmc1 m => m.chrOffset c a
  | .cnrom b => bankOffset c.chrSize 8192 b.toNat a
  | .mmc3 m => m.chrOffset c a
  | .mmc5 m => bankOffset c.chrSize (m.chrSelect (a / 1024)).2 (m.chrSelect (a / 1024)).1.toNat a
  | .mmc2 m => m.chrOffset c a
  | .mmc4 m => m.chrOffset c a

/-- `PpuMapRead` (R427; nametables for MMC5 only, R464). -/
def Mapper.ppuMapRead (mp : Mapper) (c : Cart) (a : PpuAddr) : ChrLoc :=
  if a.toNat < 0x2000 then .chr (mp.chrOffset c a.toNat)
  else match mp with
    | .mmc5 m => if a.toNat < 0x3F00 then m.ntReadLoc a.toNat else .unhandled
    | _ => .unhandled

/-- `PpuMapWrite`: pattern space is handled only if it is RAM (R427). -/
def Mapper.ppuMapWrite (mp : Mapper) (c : Cart) (a : PpuAddr) : ChrLoc :=
  if a.toNat < 0x2000 then (if c.chrIsRam then .chr (mp.chrOffset c a.toNat) else .unhandled)
  else match mp with
    | .mmc5 m => if a.toNat < 0x3F00 then m.ntWriteLoc a.toNat else .unhandled
    | _ => .unhandled

/-- The state change of a `PpuMapRead`: MMC2 and MMC4 latches (R443). -/
def Mapper.afterPpuRead (mp : Mapper) (a : PpuAddr) : Mapper :=
  match mp with
  | .mmc2 m => .mmc2 (m.latchAfterRead false a.toNat)
  | .mmc4 m => .mmc4 (m.latchAfterRead true a.toNat)
  | _ => mp

/-- `MirrorMode` (R422, R435, R439, R441, R456, R467). -/
def Mapper.mirrorMode (mp : Mapper) (c : Cart) : Mirroring :=
  match mp with
  | .nrom | .uxrom _ | .cnrom _ | .camerica _ | .mmc5 _ => c.mirrorHdr
  | .mmc1 m => m.mirroring
  | .mmc3 m => if m.mirror then .horizontal else .vertical
  | .axrom reg => if bitOf reg 4 then .singleScreenHi else .singleScreenLo
  | .mmc2 m => if m.mirror then .horizontal else .vertical
  | .mmc4 m => if m.mirror then .horizontal else .vertical

/-- `NotifyPpuAddress` (R452, R465; the others ignore it). -/
def Mapper.notifyPpuAddress (p : Params) (mp : Mapper) (addr : PpuAddr) (clock : Nat) : Mapper :=
  match mp with
  | .mmc3 m => .mmc3 (m.notify p.a12MinGap addr clock)
  | .mmc5 m => .mmc5 (m.notify addr clock)
  | _ => mp

/-- `IrqActive` (R425, R455, R466). -/
def Mapper.irqActive : Mapper → Bool
  | .mmc3 m => m.irqPending
  | .mmc5 m => m.irqPending && m.irqEnabled
  | _ => false

/-! ### Power-on values (R470 and each variant's state rule) -/

/-- R436. -/
def Mmc1.powerOn : Mmc1 := ⟨0#5, 0, 0x0C#5, 0#5, 0#5, 0#5, none⟩

/-- R441. -/
def Mmc2.powerOn : Mmc2 := ⟨0#4, 0#5, 0#5, 0#5, 0#5, false, .fe, .fe⟩

/-- R448: all 0 except `mirror`, from the header bit. -/
def Mmc3.powerOn (hdr : Mirroring) : Mmc3 :=
  ⟨0#8, List.replicate 8 0#8, hdr == .horizontal, 0#8, 0#8, 0#8, false, false, false, false, 0⟩

/-- R461. -/
def Mmc5.powerOn : Mmc5 where
  prgMode := 3#2
  chrMode := 0#2
  exramMode := 0#2
  ntMap := 0#8
  fillTile := 0#8
  fillAttr := 0#2
  prgRamBank := 0#3
  prg := [0#8, 0#8, 0#8, 0xFF#8]
  chrA := List.replicate 8 0#8
  chrB := List.replicate 4 0#8
  lastChrSet := .a
  irqTarget := 0#8
  irqEnabled := false
  irqPending := false
  inFrame := false
  scanCounter := 0#8
  lastNtAddr := none
  lastDetect := 0
  mulA := 0xFF#8
  mulB := 0xFF#8
  stored := ⟨0#8, 0#8, 0#8, 0#8, 0#8, 0#8⟩

/-- The variant of a mapper id in its power-on state (R431, R470); `none` for an id that is not supported. -/
def Mapper.ofId (id : Nat) (hdr : Mirroring) : Option Mapper :=
  match id with
  | 0 => some .nrom
  | 1 => some (.mmc1 Mmc1.powerOn)
  | 2 => some (.uxrom 0#8)
  | 3 => some (.cnrom 0#8)
  | 4 => some (.mmc3 (Mmc3.powerOn hdr))
  | 5 => some (.mmc5 Mmc5.powerOn)
  | 7 => some (.axrom 0#8)
  | 9 => some (.mmc2 Mmc2.powerOn)
  | 10 => some (.mmc4 Mmc2.powerOn)
  | 71 => some (.camerica 0#8)
  | _ => none

end Sys2Proof.Machine
end

