-- ==== Sys2Proof/Machine/Ppu.lean ====
section
/-! DEFINITION. The PPU (51_ppu.md): registers, PPU bus, raster state machine, background and sprite pipelines, pixel
output, vertical blank, NMI. Every function takes the environment `e` (parameters, image, memories), which a dot does
not change, and the devices `d`. -/

namespace Sys2Proof.Machine

/-! ### Predicates on the registers -/

/-- `rendering`: background or sprites enabled (51_ppu.md, head). -/
def Ppu.rendering (p : Ppu) : Bool := bitOf p.mask 3 || bitOf p.mask 4

/-- The palette mask of greyscale mode (R317, R338). -/
def Ppu.greyMask (p : Ppu) : Byte := if bitOf p.mask 0 then 0x30#8 else 0x3F#8

/-! ### The open-bus latch (R301, R304, R306, R310, R312) -/

/-- The bits whose age is below the decay limit, as a mask; bit 0 is the head's. -/
def OpenBus.aliveMask (limit : Nat) : List Nat → Byte
  | [] => 0#8
  | a :: rest => (OpenBus.aliveMask limit rest <<< 1) ||| (if a < limit then 1#8 else 0#8)

/-- One dot of decay (R312). -/
def OpenBus.age (limit : Nat) (b : OpenBus) : OpenBus :=
  let ages := b.ages.map (· + 1)
  { latch := b.latch &&& OpenBus.aliveMask limit ages, ages := ages }

/-- The bits of `mask` take their value from `v`, and their ages return to 0. -/
def OpenBus.refresh (mask v : Byte) (b : OpenBus) : OpenBus :=
  { latch := merge mask b.latch v
    ages := List.zipWith (fun k a => if bitOf mask k then 0 else a) (List.range 8) b.ages }

/-! ### NMI (R342, R343) -/

/-- Re-evaluate the NMI level; its rising edge raises the request. -/
def updateNmi (d : Devices) : Devices :=
  let level := d.ppu.vblank && bitOf d.ppu.ctrl 7
  { d with
    nmiRequest := d.nmiRequest || (level && !d.ppu.nmiLevel)
    ppu := { d.ppu with nmiLevel := level } }

/-! ### The PPU bus (R316 to R319, 20_memory.md R65, R66) -/

/-- The physical page of logical nametable `n` (R66). -/
def Mirroring.page (m : Mirroring) (n : Nat) : Nat :=
  match m with
  | .horizontal => n / 2
  | .vertical => n % 2
  | .singleScreenLo => 0
  | .singleScreenHi => 1

/-- The index into `ppu.vram` (R66). -/
def mirrorIndex (m : Mirroring) (a : PpuAddr) : Nat :=
  m.page (a.toNat / 1024 % 4) * 0x400 + a.toNat % 0x400

/-- `PalIndex` (R316). -/
def palIndex (a : PpuAddr) : Nat :=
  if a &&& 0x13#14 = 0x10#14 then (a &&& 0x0F#14).toNat else (a &&& 0x1F#14).toNat

/-- `PaletteRead` (R317). -/
def paletteRead (e : Env) (p : Ppu) (a : PpuAddr) : Byte := e.mem.palette.read (palIndex a) &&& p.greyMask

/-- `SetBusAddr` (R319). -/
def setBusAddr (e : Env) (a : PpuAddr) (d : Devices) : Devices :=
  { d with
    ppu := { d.ppu with busAddr := a }
    mapper := d.mapper.notifyPpuAddress e.params a d.ppu.raster.clock }

/-- The value at a PPU address, without side effect (R318). -/
def ppuPeek (e : Env) (d : Devices) (a : PpuAddr) : Byte :=
  match d.mapper.ppuMapRead e.cart a with
  | .chr o => e.mem.chr.read o
  | .ciram o => e.mem.vram.read o
  | .exRam o => e.mem.exRam.read o
  | .fill v => v
  | .unhandled =>
    if a.toNat < 0x2000 then 0#8
    else if a.toNat < 0x3F00 then e.mem.vram.read (mirrorIndex (d.mapper.mirrorMode e.cart) a)
    else paletteRead e d.ppu a

/-- `PpuRead`, and `Fetch` of the pipelines: one bus-address notification, then the read (R318, R323; log entry 13). -/
def ppuRead (e : Env) (a : PpuAddr) (d : Devices) : Byte × Devices :=
  let d1 := setBusAddr e a d
  (ppuPeek e d1 a, { d1 with mapper := d1.mapper.afterPpuRead a })

/-- Where `PpuWrite` stores (R318). -/
def ppuStoreLoc (e : Env) (d : Devices) (a : PpuAddr) : Option Location :=
  match d.mapper.ppuMapWrite e.cart a with
  | .chr o => some ⟨.chr, o⟩
  | .ciram o => some ⟨.vram, o⟩
  | .exRam o => some ⟨.exRam, o⟩
  | .fill _ => none
  | .unhandled =>
    if a.toNat < 0x2000 then none
    else if a.toNat < 0x3F00 then some ⟨.vram, mirrorIndex (d.mapper.mirrorMode e.cart) a⟩
    else some ⟨.palette, palIndex a⟩

/-! ### Scroll register arithmetic (R307, R313, R325 to R328) -/

/-- Coarse-X increment (R325). -/
def incCoarseX (v : BitVec 15) : BitVec 15 :=
  if v &&& 0x1F#15 = 31#15 then (v &&& ~~~0x1F#15) ^^^ 0x400#15 else v + 1#15

/-- Y increment (R326): the row wraps at 29 and toggles the vertical nametable bit, at 31 without toggling. -/
def incY (v : BitVec 15) : BitVec 15 :=
  if (v.extractLsb' 12 3).toNat < 7 then v + 0x1000#15
  else
    let v0 := v &&& ~~~0x7000#15
    match (v.extractLsb' 5 5).toNat with
    | 29 => (v0 &&& ~~~0x3E0#15) ^^^ 0x800#15
    | 31 => v0 &&& ~~~0x3E0#15
    | _ => v0 + 0x20#15

/-- Horizontal transfer: `v[10]`, `v[4:0]` from `t` (R327). -/
def copyX (v t : BitVec 15) : BitVec 15 := merge 0x41F#15 v t

/-- Vertical transfer: `v[14:11]`, `v[9:5]` from `t` (R328). -/
def copyY (v t : BitVec 15) : BitVec 15 := merge 0x7BE0#15 v t

/-- `v & 0x3FFF`. -/
def Scroll.addr (s : Scroll) : PpuAddr := s.v.setWidth 14

/-- The increment after a `$2007` access (R313). -/
def incVram (e : Env) (d : Devices) : Devices :=
  let v := d.ppu.scroll.v + (if bitOf d.ppu.ctrl 2 then 32#15 else 1#15)
  setBusAddr e (v.setWidth 14) { d with ppu := { d.ppu with scroll := { d.ppu.scroll with v := v } } }

/-! ### CPU-visible registers (R300 to R313) -/

/-- What a PPUSTATUS read returns in bit 7, whether it clears `ppu.vblank`, and whether it suppresses the NMI (R345). -/
def statusRace (p : Ppu) : Bool × Bool × Bool :=
  if p.vblank then
    if p.vblAge < 3 then (false, false, false)
    else if p.vblAge = 3 then (false, true, true)
    else (true, true, false)
  else (false, false, false)

/-- The PPUSTATUS byte with bit 7 given (R304). -/
def statusByte (p : Ppu) (b7 : Bool) : Byte :=
  bitAt b7 7 ||| bitAt p.sprite0Hit 6 ||| bitAt p.spriteOverflow 5 ||| (p.openBus.latch &&& 0x1F#8)

/-- PPUSTATUS read (R304, R345). -/
def readStatus (d : Devices) : Byte × Devices :=
  let race := statusRace d.ppu
  let v := statusByte d.ppu race.1
  (v, updateNmi { d with
        nmiRequest := d.nmiRequest && !race.2.2
        ppu := { d.ppu with
          vblank := d.ppu.vblank && !race.2.1
          scroll := { d.ppu.scroll with w := false }
          openBus := d.ppu.openBus.refresh 0xE0#8 v } })

/-- OAMDATA read (R306). -/
def readOamData (e : Env) (d : Devices) : Byte × Devices :=
  let v := e.mem.oam.read d.ppu.oamAddr.toNat
  (v, { d with ppu := { d.ppu with openBus := d.ppu.openBus.refresh 0xFF#8 v } })

/-- PPUDATA read (R310). -/
def readPpuData (e : Env) (d : Devices) : Byte × Devices :=
  let a := d.ppu.scroll.addr
  if a.toNat < 0x3F00 then
    let v := d.ppu.readBuffer
    let r := ppuRead e a d
    (v, incVram e { r.2 with ppu := { r.2.ppu with readBuffer := r.1, openBus := r.2.ppu.openBus.refresh 0xFF#8 v } })
  else
    let v := (paletteRead e d.ppu a &&& 0x3F#8) ||| (d.ppu.openBus.latch &&& 0xC0#8)
    let r := ppuRead e (a &&& 0x2FFF#14) d
    (v, incVram e { r.2 with ppu := { r.2.ppu with readBuffer := r.1, openBus := r.2.ppu.openBus.refresh 0x3F#8 v } })

/-- `PpuRegRead(i)` (R301). -/
def ppuRegRead (e : Env) (i : Nat) (d : Devices) : Byte × Devices :=
  match i with
  | 2 => readStatus d
  | 4 => readOamData e d
  | 7 => readPpuData e d
  | _ => (d.ppu.openBus.latch, d)

/-- PPUCTRL write (R302). -/
def writeCtrl (v : Byte) (d : Devices) : Devices :=
  updateNmi { d with
    ppu := { d.ppu with
      ctrl := v
      scroll := { d.ppu.scroll with t := merge 0xC00#15 d.ppu.scroll.t (v.setWidth 15 <<< 10) } } }

/-- PPUSCROLL write (R307). -/
def writeScroll (v : Byte) (s : Scroll) : Scroll :=
  if s.w then
    { s with t := merge 0x73E0#15 s.t ((v.setWidth 15 <<< 12) ||| ((v.setWidth 15 >>> 3) <<< 5)), w := false }
  else { s with t := merge 0x1F#15 s.t (v.setWidth 15 >>> 3), x := v.setWidth 3, w := true }

/-- PPUADDR write (R308). -/
def writeAddr (e : Env) (v : Byte) (d : Devices) : Devices :=
  let s := d.ppu.scroll
  if s.w then
    let t := merge 0xFF#15 s.t (v.setWidth 15)
    setBusAddr e (t.setWidth 14) { d with ppu := { d.ppu with scroll := { s with v := t, t := t, w := false } } }
  else
    { d with ppu := { d.ppu with scroll := { s with t := merge 0x7F00#15 s.t ((v &&& 0x3F#8).setWidth 15 <<< 8), w := true } } }

/-- The common part of every register write: the open-bus latch takes the byte (R301). -/
def refreshAll (v : Byte) (d : Devices) : Devices :=
  { d with ppu := { d.ppu with openBus := d.ppu.openBus.refresh 0xFF#8 v } }

/-- The device side of `PpuRegWrite(i, v)`, after `refreshAll`. -/
def ppuRegEffect (e : Env) (i : Nat) (v : Byte) (d : Devices) : Devices :=
  match i with
  | 0 => writeCtrl v d
  | 1 => { d with ppu := { d.ppu with mask := v } }
  | 3 => { d with ppu := { d.ppu with oamAddr := v } }
  | 4 => { d with ppu := { d.ppu with oamAddr := d.ppu.oamAddr + 1#8 } }
  | 5 => { d with ppu := { d.ppu with scroll := writeScroll v d.ppu.scroll } }
  | 6 => writeAddr e v d
  | 7 => incVram e (setBusAddr e d.ppu.scroll.addr d)
  | _ => d

/-- Where `PpuRegWrite(i, v)` stores: OAMDATA and PPUDATA (R306, R309). -/
def ppuRegStoreLoc (e : Env) (i : Nat) (d : Devices) : Option Location :=
  match i with
  | 4 => some ⟨.oam, d.ppu.oamAddr.toNat⟩
  | 7 => ppuStoreLoc e d d.ppu.scroll.addr
  | _ => none

/-- `PpuRegWrite(i, v)` on the devices (R301). -/
def ppuRegWrite (e : Env) (i : Nat) (v : Byte) (d : Devices) : Devices := ppuRegEffect e i v (refreshAll v d)

/-! ### Background pipeline (R323 to R329) -/

/-- Nametable address `0x2000 | (v & 0x0FFF)`. -/
def ntAddr (v : BitVec 15) : PpuAddr := 0x2000#14 ||| (v &&& 0x0FFF#15).setWidth 14

/-- Attribute address (R323, k = 2). -/
def attrAddr (v : BitVec 15) : PpuAddr :=
  (0x23C0#15 ||| (v &&& 0x0C00#15) ||| ((v >>> 4) &&& 0x38#15) ||| ((v >>> 2) &&& 0x07#15)).setWidth 14

/-- Background pattern address (R323, k = 4). -/
def bgPatAddr (p : Ppu) : PpuAddr :=
  (if bitOf p.ctrl 4 then 0x1000#14 else 0#14) ||| (p.bg.ntLatch.setWidth 14 <<< 4) |||
    (p.scroll.v.extractLsb' 12 3).setWidth 14

/-- The two attribute bits of the tile `v` addresses (R323, k = 2). -/
def attrBits (v : BitVec 15) (b : Byte) : BitVec 2 :=
  let b1 := if bitOf v 6 then b >>> 4 else b
  let b2 := if bitOf v 1 then b1 >>> 2 else b1
  b2.setWidth 2

/-- Shift of the four background registers (R324). -/
def BgPipe.shift (b : BgPipe) : BgPipe :=
  { b with patLo := b.patLo <<< 1, patHi := b.patHi <<< 1, attLo := b.attLo <<< 1, attHi := b.attHi <<< 1 }

/-- Load of their low bytes (R324). -/
def BgPipe.load (b : BgPipe) : BgPipe :=
  let low (r : BitVec 16) (v : Byte) : BitVec 16 := merge 0xFF#16 r (v.setWidth 16)
  { b with
    patLo := low b.patLo b.ptLoLatch
    patHi := low b.patHi b.ptHiLatch
    attLo := low b.attLo (if bitOf b.atLatch 0 then 0xFF#8 else 0#8)
    attHi := low b.attHi (if bitOf b.atLatch 1 then 0xFF#8 else 0#8) }

/-- The dots at which the registers are loaded: 9, 17, ..., 257 and 329, 337 (R324; log entry 14). -/
def isLoadDot (dot : Nat) : Bool := decide (dot % 8 = 1) && (decide (9 ≤ dot ∧ dot ≤ 257) || dot == 329 || dot == 337)

/-- Replace the PPU of the devices. -/
def Devices.setPpu (d : Devices) (p : Ppu) : Devices := { d with ppu := p }

/-- Replace the background pipeline. -/
def Devices.setBg (d : Devices) (b : BgPipe) : Devices := d.setPpu { d.ppu with bg := b }

/-- Replace the scroll address `v`. -/
def Devices.setV (d : Devices) (v : BitVec 15) : Devices :=
  d.setPpu { d.ppu with scroll := { d.ppu.scroll with v := v } }

/-- Replace the sprite pipeline. -/
def Devices.setSpr (d : Devices) (s : SpritePipe) : Devices := d.setPpu { d.ppu with spr := s }

/-- A nametable fetch into `nt_latch`. -/
def fetchNt (e : Env) (d : Devices) : Devices :=
  let r := ppuRead e (ntAddr d.ppu.scroll.v) d
  r.2.setBg { r.2.ppu.bg with ntLatch := r.1 }

/-- An attribute fetch into `at_latch`. -/
def fetchAttr (e : Env) (d : Devices) : Devices :=
  let v := d.ppu.scroll.v
  let r := ppuRead e (attrAddr v) d
  r.2.setBg { r.2.ppu.bg with atLatch := attrBits v r.1 }

/-- The low pattern fetch. -/
def fetchPatLo (e : Env) (d : Devices) : Devices :=
  let r := ppuRead e (bgPatAddr d.ppu) d
  r.2.setBg { r.2.ppu.bg with ptLoLatch := r.1 }

/-- The high pattern fetch. -/
def fetchPatHi (e : Env) (d : Devices) : Devices :=
  let r := ppuRead e (bgPatAddr d.ppu ||| 8#14) d
  r.2.setBg { r.2.ppu.bg with ptHiLatch := r.1 }

/-- The fetch of one background dot, `k = (dot - 1) mod 8` (R323); none at dot 257. -/
def bgFetch (e : Env) (dot : Nat) (d : Devices) : Devices :=
  match (dot - 1) % 8 with
  | 0 => if dot = 257 then d else fetchNt e d
  | 2 => fetchAttr e d
  | 4 => fetchPatLo e d
  | 6 => fetchPatHi e d
  | 7 => d.setV (incCoarseX d.ppu.scroll.v)
  | _ => d

/-- The background pipeline's dots: 2..257 and 321..337 (R323). -/
def isBgDot (dot : Nat) : Bool := decide (2 ≤ dot ∧ dot ≤ 257) || decide (321 ≤ dot ∧ dot ≤ 337)

/-- Shift, load, fetch of one dot (R323, R324, R325). -/
def bgDot (e : Env) (dot : Nat) (d : Devices) : Devices :=
  if isBgDot dot then
    let d1 := if bitOf d.ppu.mask 3 then d.setBg d.ppu.bg.shift else d
    let d2 := if isLoadDot dot then d1.setBg d1.ppu.bg.load else d1
    bgFetch e dot d2
  else d

/-- The raster positions at which the PPU itself moves `v` other than by coarse-X, and the fetch at dot 339
(R326 to R329). -/
def scrollDot (e : Env) (scanline : Int) (dot : Nat) (d : Devices) : Devices :=
  if dot = 256 then d.setV (incY d.ppu.scroll.v)
  else if dot = 257 then d.setV (copyX d.ppu.scroll.v d.ppu.scroll.t)
  else if 280 ≤ dot ∧ dot ≤ 304 ∧ scanline = -1 then d.setV (copyY d.ppu.scroll.v d.ppu.scroll.t)
  else if dot = 339 then fetchNt e d
  else d

/-! ### Sprites (R330 to R332) -/

/-- Sprite height (R300, PPUCTRL bit 5). -/
def Ppu.spriteHeight (p : Ppu) : Nat := if bitOf p.ctrl 5 then 16 else 8

/-- OAM entry `i` covers the line after `L` (R330). -/
def spriteInRange (oam : Memory) (h : Nat) (L : Int) (i : Nat) : Bool :=
  let row := L - ((oam.read (4 * i)).toNat : Int)
  decide (0 ≤ row ∧ row < h)

/-- The entries in range, in OAM order (R330). -/
def spritesInRange (oam : Memory) (h : Nat) (L : Int) : List Nat :=
  (List.range 64).filter (spriteInRange oam h L)

/-- The four bytes of OAM entry `i`. -/
def oamEntry (oam : Memory) (i : Nat) : List Byte :=
  [oam.read (4 * i), oam.read (4 * i + 1), oam.read (4 * i + 2), oam.read (4 * i + 3)]

/-- Sprite evaluation at dot 257 of line `L` (R330): the first eight entries in range; a ninth sets the overflow. -/
def evalSprites (e : Env) (L : Int) (d : Devices) : Devices :=
  let hits := spritesInRange e.mem.oam d.ppu.spriteHeight L
  let first := hits.take 8
  d.setPpu { d.ppu with
    spriteOverflow := d.ppu.spriteOverflow || decide (8 < hits.length)
    spr := { d.ppu.spr with
      secOam := first.flatMap (oamEntry e.mem.oam) ++ List.replicate (32 - 4 * first.length) 0xFF#8
      secCount := first.length
      secHasZero := first.contains 0 } }

/-- `r` of R332: the pattern row, from the other end when the attribute byte flips vertically. It is taken in the 14 bits
of a PPU address, modulo 2^14 (R10), also where `row` lies outside the sprite, as it can when `sec_oam` is of an earlier
line: the width is the model's choice there (log entry 30). -/
def spriteRow (height : Nat) (attr : Byte) (row : Int) : PpuAddr :=
  BitVec.ofInt 14 (if bitOf attr 7 then (height : Int) - 1 - row else row)

/-- Sprite pattern address for tile, attribute byte and row (R332). -/
def spritePatAddr (p : Ppu) (tile attr : Byte) (row : Int) : PpuAddr :=
  let r := spriteRow p.spriteHeight attr row
  if bitOf p.ctrl 5 then
    (if bitOf tile 0 then 0x1000#14 else 0#14) ||| ((tile &&& 0xFE#8).setWidth 14 <<< 4) ||| ((r &&& 8#14) <<< 1) |||
      (r &&& 7#14)
  else (if bitOf p.ctrl 3 then 0x1000#14 else 0#14) ||| (tile.setWidth 14 <<< 4) ||| r

/-- The pattern address of slot `s` on line `L`: of its sprite, or for an empty slot of tile 0xFF, row 0 (R332). In 8x16
mode that is 0x1FF0, as R332 says in words (log entry 15). In 8x8 mode the rule gives no attribute byte: that the row is
not flipped is the model's choice (log entry 29). -/
def slotPatAddr (p : Ppu) (L : Int) (s : Nat) : PpuAddr :=
  if s < p.spr.secCount then
    let y := p.spr.secOam.getD (4 * s) 0#8
    spritePatAddr p (p.spr.secOam.getD (4 * s + 1) 0#8) (p.spr.secOam.getD (4 * s + 2) 0#8) (L - (y.toNat : Int))
  else if bitOf p.ctrl 5 then 0x1FF0#14
  else spritePatAddr p 0xFF#8 0#8 0

/-- Slot `s` after its two pattern bytes (R332): horizontally flipped if the attribute says so. -/
def loadSlot (sp : SpritePipe) (s : Nat) (plane0 plane1 : Byte) : SpriteSlot :=
  let attr := sp.secOam.getD (4 * s + 2) 0#8
  let flip (b : Byte) := if bitOf attr 6 then reverseByte b else b
  ⟨flip plane0, flip plane1, attr, sp.secOam.getD (4 * s + 3) 0#8⟩

/-- The sprite fetches of dots 257..320 (R332). `lo` waits in `fetchLo` (log entry 11). Where rendering was off at d0 + 4
and is on at d0 + 6, R332 gives `lo` no value: the model uses what the last low fetch left there (log entry 28). -/
def spriteFetch (e : Env) (L : Int) (dot : Nat) (d : Devices) : Devices :=
  let s := (dot - 257) / 8
  match (dot - 257) % 8 with
  | 0 => (ppuRead e (ntAddr d.ppu.scroll.v) d).2
  | 2 => (ppuRead e (attrAddr d.ppu.scroll.v) d).2
  | 4 =>
    let r := ppuRead e (slotPatAddr d.ppu L s) d
    r.2.setSpr { r.2.ppu.spr with fetchLo := r.1 }
  | 6 =>
    let r := ppuRead e (slotPatAddr d.ppu L s ||| 8#14) d
    let sp := r.2.ppu.spr
    if s < sp.secCount then r.2.setSpr { sp with slots := sp.slots.set s (loadSlot sp s sp.fetchLo r.1) } else r.2
  | 7 =>
    if dot = 320 then
      d.setSpr { d.ppu.spr with count := d.ppu.spr.secCount, zeroOnLine := d.ppu.spr.secHasZero }
    else d
  | _ => d

/-- Evaluation, fetches and the OAMADDR clear (R330, R332, R305). -/
def spriteDot (e : Env) (L : Int) (dot : Nat) (d : Devices) : Devices :=
  if 257 ≤ dot ∧ dot ≤ 320 then
    let d1 := if dot = 257 then evalSprites e L d else d
    let d2 := spriteFetch e L dot d1
    d2.setPpu { d2.ppu with oamAddr := 0#8 }
  else d

/-! ### Pixel output (R334 to R338) -/

/-- The background pixel at `x`: pattern and palette (R334). -/
def bgPixel (p : Ppu) (x : Nat) : Nat × Nat :=
  if bitOf p.mask 3 && (decide (8 ≤ x) || bitOf p.mask 1) then
    let k := 15 - p.scroll.x.toNat
    let two (h l : BitVec 16) : Nat := (bitOf h k).toNat * 2 + (bitOf l k).toNat
    (two p.bg.patHi p.bg.patLo, two p.bg.attHi p.bg.attLo)
  else (0, 0)

/-- What the sprite layer shows at a pixel (R335). -/
structure SpritePixel where
  pattern : Nat
  palette : Nat
  behind : Bool
  isZero : Bool
  deriving DecidableEq, Repr

/-- The pattern of one slot at `x`, 0 outside its eight columns (R335). -/
def slotPattern (s : SpriteSlot) (x : Nat) : Nat :=
  if s.x.toNat ≤ x ∧ x ≤ s.x.toNat + 7 then
    let k := 7 - (x - s.x.toNat)
    (bitOf s.patHi k).toNat * 2 + (bitOf s.patLo k).toNat
  else 0

/-- The first opaque slot at `x`, from slot number `n` on (R335). -/
def firstSprite (zeroOnLine : Bool) (x : Nat) : Nat → List SpriteSlot → SpritePixel
  | _, [] => ⟨0, 0, false, false⟩
  | n, s :: rest =>
    if slotPattern s x ≠ 0 then
      ⟨slotPattern s x, (s.attr.setWidth 2).toNat + 4, bitOf s.attr 5, decide (n = 0) && zeroOnLine⟩
    else firstSprite zeroOnLine x (n + 1) rest

/-- The sprite pixel at `x` (R335). -/
def spritePixel (p : Ppu) (x : Nat) : SpritePixel :=
  if bitOf p.mask 4 && (decide (8 ≤ x) || bitOf p.mask 2) then
    firstSprite p.spr.zeroOnLine x 0 (p.spr.slots.take p.spr.count)
  else ⟨0, 0, false, false⟩

/-- The priority multiplexer: the palette entry shown (R336). -/
def muxEntry (bg : Nat × Nat) (sp : SpritePixel) : Nat :=
  if bg.1 = 0 then (if sp.pattern = 0 then 0 else sp.palette * 4 + sp.pattern)
  else if sp.pattern = 0 || sp.behind then bg.2 * 4 + bg.1
  else sp.palette * 4 + sp.pattern

/-- Does the pixel at `x` hit sprite 0 (R337)? -/
def hitsSprite0 (p : Ppu) (x : Nat) (bg : Nat × Nat) (sp : SpritePixel) : Bool :=
  bg.1 != 0 && sp.pattern != 0 && sp.isZero && bitOf p.mask 3 && bitOf p.mask 4 &&
    !(decide (x < 8) && (!bitOf p.mask 1 || !bitOf p.mask 2)) && x != 255

/-- The frame-buffer entry of a palette entry: emphasis above index (R338). -/
def pixelValue (e : Env) (p : Ppu) (entry : Nat) : BitVec 9 :=
  p.mask.extractLsb' 5 3 ++ (e.mem.palette.read (palIndex (BitVec.ofNat 14 entry)) &&& p.greyMask).setWidth 6

/-- Produce pixel `x` of line `y` (R334 to R338). -/
def pixelDot (e : Env) (y x : Nat) (d : Devices) : Devices :=
  let p := d.ppu
  let bg := bgPixel p x
  let sp := spritePixel p x
  d.setPpu { p with
    sprite0Hit := p.sprite0Hit || hitsSprite0 p x bg sp
    frameBuffer := Cells.write p.frameBuffer (256 * y + x) (pixelValue e p (muxEntry bg sp)) }

/-! ### One dot (R320, R321) -/

/-- Clock, `vbl_age`, open-bus aging (R320 step 1). -/
def ageDot (e : Env) (d : Devices) : Devices :=
  d.setPpu { d.ppu with
    raster := { d.ppu.raster with clock := d.ppu.raster.clock + 1 }
    vblAge := min 255 (d.ppu.vblAge + 1)
    openBus := d.ppu.openBus.age e.params.openBusDecayDots }

/-- Pre-render clears and vblank set (R341, R340). -/
def vblankDot (scanline : Int) (dot : Nat) (d : Devices) : Devices :=
  if dot = 1 then
    if scanline = -1 then d.setPpu { d.ppu with vblank := false, sprite0Hit := false, spriteOverflow := false }
    else if scanline = 241 then d.setPpu { d.ppu with vblank := true, vblAge := 0 }
    else d
  else d

/-- The rendering work of one dot of a render line (R320 step 4). -/
def renderDot (e : Env) (scanline : Int) (dot : Nat) (d : Devices) : Devices :=
  if decide (-1 ≤ scanline ∧ scanline ≤ 239) && d.ppu.rendering then
    spriteDot e scanline dot (scrollDot e scanline dot (bgDot e dot d))
  else d

/-- Pixel output on visible lines (R320 step 5). -/
def outputDot (e : Env) (scanline : Int) (dot : Nat) (d : Devices) : Devices :=
  if 0 ≤ scanline ∧ scanline ≤ 239 ∧ 1 ≤ dot ∧ dot ≤ 256 then pixelDot e scanline.toNat (dot - 1) d else d

/-- The raster position after the current dot (R321). -/
def Raster.advance (r : Raster) (rendering : Bool) : Raster :=
  if r.dot + 1 = 341 then
    if r.scanline + 1 = 261 then
      { r with
        scanline := -1, frame := r.frame + 1, oddFrame := !r.oddFrame, dot := if !r.oddFrame && rendering then 1 else 0 }
    else { r with scanline := r.scanline + 1, dot := 0 }
  else { r with dot := r.dot + 1 }

/-- `ppu.Tick()`: one dot (R320). -/
def ppuDot (e : Env) (d : Devices) : Devices :=
  let scanline := d.ppu.raster.scanline
  let dot := d.ppu.raster.dot
  let d1 := updateNmi (outputDot e scanline dot (renderDot e scanline dot (vblankDot scanline dot (ageDot e d))))
  d1.setPpu { d1.ppu with raster := d1.ppu.raster.advance d1.ppu.rendering }

end Sys2Proof.Machine
end

