-- ==== Sys2Proof/Machine/Bus.lean ====
section
/-! DEFINITION. The memory bus (50_bus.md R270 to R284): address decode, the tick, the stall counter, the DMC fetch and
OAM DMA. A read or a tick takes the environment (`Env`), which it cannot change, and changes `Devices` only; a write
changes memories and devices. -/

namespace Sys2Proof.Machine

/-! ### Address decode (R271, 20_memory.md R62) -/

/-- The target of a CPU bus address. -/
inductive BusTarget where
  /-- internal RAM, by index -/
  | ram (i : Nat)
  /-- PPU register 0..7 -/
  | ppu (i : Nat)
  /-- APU and I/O register, by its offset from 0x4000 (0..0x1F) -/
  | io (r : Nat)
  | cart
  deriving DecidableEq, Repr

/-- The decode: complete and unambiguous (R271). -/
def busTarget (a : Word) : BusTarget :=
  if a.toNat < 0x2000 then .ram (a &&& 0x07FF#16).toNat
  else if a.toNat < 0x4000 then .ppu (a &&& 7#16).toNat
  else if a.toNat < 0x4020 then .io (a.toNat - 0x4000)
  else .cart

/-- Reads of 0x4000-0x401F: APU status, joypads, all else 0 (R271, R281). -/
def ioRead (r : Nat) (d : Devices) : Byte × Devices :=
  match r with
  | 0x15 => (d.apu.status, { d with apu := d.apu.afterStatusRead })
  | 0x16 =>
    let j := d.joy1.read (d.dataLatch &&& 0xE0#8)
    (j.1, { d with joy1 := j.2 })
  | 0x17 =>
    let j := d.joy2.read (d.dataLatch &&& 0xE0#8)
    (j.1, { d with joy2 := j.2 })
  | _ => (0#8, d)

/-- `BusRead(a)` (R271): no tick. -/
def busRead (e : Env) (a : Word) (d : Devices) : Byte × Devices :=
  match busTarget a with
  | .ram i => (e.mem.ram.read i, d)
  | .ppu i => ppuRegRead e i d
  | .io r => ioRead r d
  | .cart => (d.mapper.cpuPeek e a, { d with mapper := d.mapper.afterCpuRead a })

/-! ### The tick (R272) and the DMC fetch (R279, 52_apu.md R398) -/

/-- The refill check with `DmcFetch()`: the byte comes through the bus decode, then the stall of `DMC_STALL` cycles is
requested; sample exhaustion raises the DMC IRQ. -/
def dmcRefill (e : Env) (d : Devices) : Devices :=
  if d.apu.dmc.wantsByte then
    let r := busRead e d.apu.dmc.curAddr d
    let m := r.2.apu.dmc.deliver r.1
    { r.2 with
      stall := r.2.stall + Config.dmcStall
      apu := { r.2.apu with dmc := m.1, dmcIrq := r.2.apu.dmcIrq || m.2 } }
  else d

/-- `apu.Tick()` (52_apu.md R371): sequencer, timers, refill check, output. -/
def apuTick (e : Env) (d : Devices) : Devices :=
  let a := (d.apu.clockSequencer e.params.fsSteps).clockTimers (d.cycles % 2 == 0)
  let d1 := dmcRefill e { d with apu := a }
  { d1 with apu := d1.apu.output e.params }

/-- `Tick()`: one CPU cycle of machine time, three dots and one APU cycle (R272). -/
def tick (e : Env) (d : Devices) : Devices :=
  apuTick e (ppuDot e (ppuDot e (ppuDot e { d with cycles := d.cycles + 1 })))

/-! ### The CPU's read (R274) -/

/-- One served stall cycle: the counter goes down, the machine ticks, the dummy address is read (R274). -/
def stallCycle (e : Env) (dummy : Word) (d : Devices) : Devices :=
  (busRead e dummy (tick e { d with stall := d.stall - 1 })).2

/-- The stall loop of R274, at most `fuel` cycles of it. -/
def serveStall (e : Env) (dummy : Word) : Nat → Devices → Devices
  | 0, d => d
  | n + 1, d => if d.stall = 0 then d else serveStall e dummy n (stallCycle e dummy d)

/-- Enough fuel for the stall loop: a DMC byte lasts at least 432 cycles, so the loop asks for at most two bytes beyond
one in 432 cycles (log entry 7). -/
def stallFuel (d : Devices) : Nat := 2 * (d.stall + 8)

/-- The address a stall cycle reads (R274, `STALL_DUMMY_ADDR`). -/
def stallDummy (e : Env) (a : Word) (d : Devices) : Word :=
  match e.params.stallDummyAddr with
  | .lastCompletedRead => d.lastReadAddr
  | .currentRead => a

/-- `Read(a)` as the CPU and OAM DMA call it (R274). -/
def cpuRead (e : Env) (a : Word) (d : Devices) : Byte × Devices :=
  let d1 := serveStall e (stallDummy e a d) (stallFuel d) d
  let r := busRead e a (tick e d1)
  (r.1, { r.2 with lastReadAddr := a, dataLatch := r.1 })

/-! ### Writes (R271, R275) -/

/-- The device side of `BusWrite(a, v)`, but for OAM DMA (R271). -/
def busWriteDevices (e : Env) (a : Word) (v : Byte) (d : Devices) : Devices :=
  match busTarget a with
  | .ram _ => d
  | .ppu i => ppuRegWrite e i v d
  | .io r =>
    if r = 0x14 then d
    else if r = 0x15 then dmcRefill e { d with apu := d.apu.writeReg r v }
    else if r = 0x16 then { d with joy1 := d.joy1.write v, joy2 := d.joy2.write v }
    else { d with apu := d.apu.writeReg r v }
  | .cart => { d with mapper := d.mapper.cpuWriteReg a v d.cycles }

/-- Where `BusWrite(a, v)` stores, but for OAM DMA (R271): the state is that after the write cycle's tick. -/
def busStoreLoc (e : Env) (a : Word) (d : Devices) : Option Location :=
  match busTarget a with
  | .ram i => some ⟨.ram, i⟩
  | .ppu i => ppuRegStoreLoc e i d
  | .io _ => none
  | .cart => d.mapper.cpuStoreLoc e.cart a

/-- `Tick()` on the state. -/
def State.tick (s : State) : State := { s with dev := Machine.tick s.env s.dev }

/-- `BusWrite(a, v)` but for OAM DMA. -/
def State.busWritePlain (a : Word) (v : Byte) (s : State) : State :=
  { s with mem := s.mem.storeAt (busStoreLoc s.env a s.dev) v, dev := busWriteDevices s.env a v s.dev }

/-- The last line of `Write` (R275). -/
def State.latchData (v : Byte) (s : State) : State := { s with dev := { s.dev with dataLatch := v } }

/-- One byte of OAM DMA: `Write(0x2004, Read(a))` (R280). -/
def State.dmaByte (a : Word) (s : State) : State :=
  let r := cpuRead s.env a s.dev
  let s1 := { s with dev := r.2 }
  (s1.tick.busWritePlain 0x2004#16 r.1).latchData r.1

/-- The `n` last bytes of the page `v` of OAM DMA (R280). -/
def State.dmaBytes (v : Byte) : Nat → State → State
  | 0, s => s
  | n + 1, s => State.dmaBytes v n (s.dmaByte ((v.setWidth 16 <<< 8) ||| BitVec.ofNat 16 (255 - n)))

/-- `OamDma(v)` (R280): halt cycle, alignment cycle when the write cycle was odd, 256 byte pairs. -/
def State.oamDma (v : Byte) (s : State) : State :=
  let s1 := s.tick
  let s2 := if s.dev.cycles % 2 = 1 then s1.tick else s1
  s2.dmaBytes v 256

/-- `BusWrite(a, v)` (R271). -/
def State.busWrite (a : Word) (v : Byte) (s : State) : State :=
  if a = 0x4014#16 then s.oamDma v else s.busWritePlain a v

/-! ### The IRQ line (R273) -/

/-- `bus.IrqAsserted`. -/
def Devices.irqAsserted (d : Devices) : Bool := d.mapper.irqActive || d.apu.irqActive

end Sys2Proof.Machine
end

