-- ==== Sys2Proof/Machine/Flags.lean ====
section
/-! DEFINITION. The status register's flags and every flag computation of the instruction set (10_state.md R22 to R24,
42_alu.md R177 to R186, 43_rmw.md R191 to R200, 46_unofficial.md R245 to R248): functions on the operand bytes and the
status byte. -/

namespace Sys2Proof.Machine

/-- The flags of `P` by bit number (R22). -/
abbrev flagC : Nat := 0
/-- Zero. -/
abbrev flagZ : Nat := 1
/-- Interrupt disable. -/
abbrev flagI : Nat := 2
/-- Decimal: stored, no effect (R186). -/
abbrev flagD : Nat := 3
/-- Break: exists only in pushed bytes (R23). -/
abbrev flagB : Nat := 4
/-- Unused: always 1 (R23). -/
abbrev flagU : Nat := 5
/-- Overflow. -/
abbrev flagV : Nat := 6
/-- Negative. -/
abbrev flagN : Nat := 7

/-- `P` with flag `k` at `b`. -/
def setFlag (k : Nat) (b : Bool) (p : Byte) : Byte := if b then p ||| (1#8 <<< k) else p &&& ~~~(1#8 <<< k)

/-- `setNZ(v)` (R24). -/
def setNZ (v p : Byte) : Byte := setFlag flagN (bitOf v 7) (setFlag flagZ (v == 0#8) p)

/-- The status byte BRK and PHP push: B and U set (R168, R211). -/
def pushedBySoftware (p : Byte) : Byte := p ||| 0x30#8

/-- The status byte NMI and IRQ entry push: U set, B clear (R498). -/
def pushedByHardware (p : Byte) : Byte := (p ||| 0x20#8) &&& 0xEF#8

/-- The status PLP and RTI load from a pulled byte: B clear, U set (R170, R210). -/
def pulledStatus (b : Byte) : Byte := (b &&& 0xCF#8) ||| 0x20#8

/-! ### Operations: a result byte and a status byte -/

/-- A result and the status after it. -/
structure AluResult where
  value : Byte
  p : Byte
  deriving DecidableEq, Repr

/-- A result that sets only N and Z. -/
def resultNZ (v p : Byte) : AluResult := ⟨v, setNZ v p⟩

/-- Carry as a number. -/
def carryIn (p : Byte) : Nat := (bitOf p flagC).toNat

/-- Binary addition with carry (R180); D is ignored. -/
def adc (a m p : Byte) : AluResult :=
  let sum := a.toNat + m.toNat + carryIn p
  let r := BitVec.ofNat 8 sum
  ⟨r, setNZ r (setFlag flagV (bitOf (~~~(a ^^^ m) &&& (a ^^^ r)) 7) (setFlag flagC (decide (0xFF < sum)) p))⟩

/-- Subtraction is addition of the complement (R181). -/
def sbc (a m p : Byte) : AluResult := adc a (m ^^^ 0xFF#8) p

/-- The status after a compare of `r` with `m` (R182). -/
def compare (r m p : Byte) : Byte :=
  setFlag flagN (bitOf (r - m) 7) (setFlag flagZ (r == m) (setFlag flagC (decide (m.toNat ≤ r.toNat)) p))

/-- The status after BIT (R185). -/
def bitTest (a m p : Byte) : Byte :=
  setFlag flagV (bitOf m 6) (setFlag flagN (bitOf m 7) (setFlag flagZ ((a &&& m) == 0#8) p))

/-- ASL (R191). -/
def asl (v p : Byte) : AluResult := resultNZ (v <<< 1) (setFlag flagC (bitOf v 7) p)

/-- LSR (R192). -/
def lsr (v p : Byte) : AluResult := resultNZ (v >>> 1) (setFlag flagC (bitOf v 0) p)

/-- ROL (R193). -/
def rol (v p : Byte) : AluResult := resultNZ ((v <<< 1) ||| bitAt (bitOf p flagC) 0) (setFlag flagC (bitOf v 7) p)

/-- ROR (R194). -/
def ror (v p : Byte) : AluResult := resultNZ ((v >>> 1) ||| bitAt (bitOf p flagC) 7) (setFlag flagC (bitOf v 0) p)

/-- INC and the register increments (R195, R197). -/
def inc (v p : Byte) : AluResult := resultNZ (v + 1#8) p

/-- DEC and the register decrements (R196, R199). -/
def dec (v p : Byte) : AluResult := resultNZ (v - 1#8) p

/-- ANC (R245). -/
def anc (a m p : Byte) : AluResult :=
  let r := a &&& m
  ⟨r, setFlag flagC (bitOf r 7) (setNZ r p)⟩

/-- ALR (R246): LSR of the AND. -/
def alr (a m p : Byte) : AluResult := lsr (a &&& m) p

/-- ARR (R247): C is bit 6 and V bit 6 xor bit 5 of the result. -/
def arr (a m p : Byte) : AluResult :=
  let r := ((a &&& m) >>> 1) ||| bitAt (bitOf p flagC) 7
  ⟨r, setFlag flagV (bitOf r 6 ^^ bitOf r 5) (setFlag flagC (bitOf r 6) (setNZ r p))⟩

/-- AXS (R248): the new X. -/
def axs (a x m p : Byte) : AluResult :=
  let t := a &&& x
  resultNZ (t - m) (setFlag flagC (decide (m.toNat ≤ t.toNat)) p)

/-- ANE (R249) with `ANE_CONST` = `k`. -/
def ane (k a x m p : Byte) : AluResult := resultNZ ((a ||| k) &&& x &&& m) p

/-- LXA (R250) with `LXA_CONST` = `k`. -/
def lxa (k a m p : Byte) : AluResult := resultNZ ((a ||| k) &&& m) p

end Sys2Proof.Machine
end

