-- ==== Sys2Proof/Machine/Ops.lean ====
section
/-! DEFINITION. What the instructions are made of: the CPU's bus cycles, instruction fetch, the stack, register
updates, interrupt entry and the return from it (41_transfer_stack.md R160, 44_control_flow.md R210 and R211,
60_exceptions.md R494 to R499). -/

namespace Sys2Proof.Machine

/-! ### Bus cycles -/

/-- `bus.IrqAsserted AND NOT P.I` (R494). -/
def State.irqRequested (s : State) : Bool := s.dev.irqAsserted && !bitOf s.cpu.p flagI

/-- Record the poll at the end of a CPU cycle (R496; used only by `IRQ_POLL_MODEL = penultimate_cycle`). -/
def State.recordPoll (s : State) : State := { s with poll := ⟨s.irqRequested, s.poll.last⟩ }

/-- One `Read(a)` of the CPU (R274). -/
def State.read (a : Word) (s : State) : Byte × State :=
  let r := cpuRead s.env a s.dev
  (r.1, { s with dev := r.2 }.recordPoll)

/-- A `Read(a)` whose value is discarded: a dummy read (R121 to R132). -/
def State.dummyRead (a : Word) (s : State) : State := (s.read a).2

/-- One `Write(a, v)` of the CPU (R275): tick, access, data latch. At 0x4014 the access holds all of OAM DMA (R280), and
the latch is left with `v`, as R275's last line has it; R277's words and VB.3 have the DMA's last byte (log entry 32). -/
def State.write (a : Word) (v : Byte) (s : State) : State :=
  ((s.tick.busWrite a v).latchData v).recordPoll

/-! ### Register updates -/

/-- `PC <- w`. -/
def State.setPc (w : Word) (s : State) : State := { s with cpu := { s.cpu with pc := w } }

/-- `P <- p`. -/
def State.setP (p : Byte) (s : State) : State := { s with cpu := { s.cpu with p := p } }

/-- `A <- v`. -/
def State.setA (v : Byte) (s : State) : State := { s with cpu := { s.cpu with a := v } }

/-- `X <- v`. -/
def State.setX (v : Byte) (s : State) : State := { s with cpu := { s.cpu with x := v } }

/-- `Y <- v`. -/
def State.setY (v : Byte) (s : State) : State := { s with cpu := { s.cpu with y := v } }

/-- `S <- v`. -/
def State.setS (v : Byte) (s : State) : State := { s with cpu := { s.cpu with s := v } }

/-- Result and status to A and P. -/
def State.setAP (r : AluResult) (s : State) : State := (s.setA r.value).setP r.p

/-- Result and status to X and P. -/
def State.setXP (r : AluResult) (s : State) : State := (s.setX r.value).setP r.p

/-- Result and status to Y and P. -/
def State.setYP (r : AluResult) (s : State) : State := (s.setY r.value).setP r.p

/-! ### Fetching (R121 to R133) -/

/-- `Read(PC); PC <- PC + 1`. -/
def State.fetch (s : State) : Byte × State :=
  let r := s.read s.cpu.pc
  (r.1, r.2.setPc (s.cpu.pc + 1#16))

/-- The little-endian operand word: two fetches (R127). -/
def State.fetchWord (s : State) : Word × State :=
  let ll := s.fetch
  let hh := ll.2.fetch
  (cat hh.1 ll.1, hh.2)

/-- `Read(PC)` without increment: C2 of the one-byte instructions (R121). -/
def State.dummyFetch (s : State) : State := s.dummyRead s.cpu.pc

/-! ### Stack (R160) -/

/-- `0x0100 | S`. -/
def stackAddr (sp : Byte) : Word := 0x0100#16 ||| zext sp

/-- `Write(0x0100 | S, v); S <- u8(S - 1)`. -/
def State.push (v : Byte) (s : State) : State := (s.write (stackAddr s.cpu.s) v).setS (s.cpu.s - 1#8)

/-- `Read(0x0100 | S); S <- u8(S + 1)`: the dummy read before the first pull (R169, R209, R210). -/
def State.stackStep (s : State) : State := (s.dummyRead (stackAddr s.cpu.s)).setS (s.cpu.s + 1#8)

/-- `Read(0x0100 | S)`: the byte at the stack pointer. -/
def State.readStack (s : State) : Byte × State := s.read (stackAddr s.cpu.s)

/-- `Read(0x0100 | S); S <- u8(S + 1)`: a pulled byte that is not the last (R209, R210). -/
def State.readStackStep (s : State) : Byte × State :=
  let r := s.readStack
  (r.1, r.2.setS (s.cpu.s + 1#8))

/-- Push the program counter: high byte, then low byte. -/
def State.pushPc (s : State) : State := (s.push (hi s.cpu.pc)).push (lo s.cpu.pc)

/-! ### Taking an interrupt or BRK (R498, R211) and returning (R210) -/

/-- Who enters a handler (R491). -/
inductive Interrupt where
  | nmi
  | irq
  | brk
  deriving DecidableEq, Repr

/-- The NMI vector's address (R64). -/
def nmiVector : Word := 0xFFFA#16

/-- The reset vector's address. -/
def resetVector : Word := 0xFFFC#16

/-- The vector IRQ and BRK share. -/
def irqVector : Word := 0xFFFE#16

/-- The status byte an entry pushes: B only for BRK (R498, R499). -/
def Interrupt.pushedStatus (k : Interrupt) (p : Byte) : Byte :=
  match k with
  | .nmi => pushedByHardware p
  | .irq => pushedByHardware p
  | .brk => pushedBySoftware p

/-- The decision after C5 (R498): an NMI request raised by then redirects IRQ and BRK to the NMI vector and is
consumed. -/
def State.chooseVector (k : Interrupt) (s : State) : Word × State :=
  match k with
  | .nmi => (nmiVector, s)
  | .irq | .brk =>
    if s.dev.nmiRequest then (nmiVector, { s with dev := { s.dev with nmiRequest := false } })
    else (irqVector, s)

/-- `PC <-` the little-endian word at `vec`: two reads (C6, C7 of R498). -/
def State.loadVector (vec : Word) (s : State) : State :=
  let l := s.read vec
  let h := l.2.read (vec + 1#16)
  h.2.setPc (cat h.1 l.1)

/-- `P.I <- 1`. -/
def State.maskIrq (s : State) : State := s.setP (setFlag flagI true s.cpu.p)

/-- C3 to C7 of an entry, shared by NMI, IRQ and BRK (R498): push PC and status, choose the vector, set I, load PC. -/
def State.enterHandler (k : Interrupt) (s : State) : State :=
  let v := (s.pushPc.push (k.pushedStatus s.cpu.p)).chooseVector k
  v.2.maskIrq.loadVector v.1

/-- `InterruptEntry(kind)` of NMI and IRQ (R498): two dummy reads, then the shared part. -/
def State.interruptEntry (k : Interrupt) (s : State) : State := s.dummyFetch.dummyFetch.enterHandler k

/-- C3 to C6 of RTI (R210): pull P, then PC. -/
def State.returnFromInterrupt (s : State) : State :=
  let b := s.stackStep.readStackStep
  let l := (b.2.setP (pulledStatus b.1)).readStackStep
  let h := l.2.readStack
  h.2.setPc (cat h.1 l.1)

/-! ### The parts of a step (R490, R494, R496) -/

/-- What a step does first: the event it takes, if any (R490, R497). -/
def State.pendingEvent (s : State) : Option Interrupt :=
  if s.dev.nmiRequest then some .nmi else if s.cpu.irqLatch then some .irq else none

/-- No cycle of the new step has been polled yet (R496). -/
def State.beginStep (s : State) : State := { s with poll := ⟨false, false⟩ }

/-- The IRQ latch at the end of a step (R494, or R496). -/
def State.latchIrq (s : State) : Bool :=
  match s.params.irqPollModel with
  | .endOfStep => s.irqRequested
  | .penultimateCycle => s.poll.prev

/-- The last line of `Step` (R490). -/
def State.endStep (s : State) : State := { s with cpu := { s.cpu with irqLatch := s.latchIrq } }

/-- A step of the jammed CPU (R490, R262): one dummy read, the latch cleared. -/
def State.jammedStep (s : State) : State :=
  let s1 := s.dummyFetch
  { s1 with cpu := { s1.cpu with irqLatch := false } }

/-- An NMI step (R490): the request and the IRQ latch are cleared, then the entry. -/
def State.nmiStep (s : State) : State :=
  { s with dev := { s.dev with nmiRequest := false }, cpu := { s.cpu with irqLatch := false } }.interruptEntry .nmi

end Sys2Proof.Machine
end

