-- ==== Sys2Proof/Machine/Operands.lean ====
section
/-! DEFINITION. The addressing modes as bus-cycle sequences (31_addressing_modes.md R121 to R135) and the tails of the
three access classes. Every function runs from C2: C1, the opcode fetch, is the step's (R490). -/

namespace Sys2Proof.Machine

/-! ### Indexing (R128, R134) -/

/-- `u16(base + index)`. -/
def indexed (base : Word) (i : Byte) : Word := base + zext i

/-- The un-carried address: the index is added to the low byte only (R128). -/
def uncarried (base : Word) (i : Byte) : Word := cat (hi base) (lo base + i)

/-- Is a page crossed (R134)? -/
def pageCrossed (base : Word) (i : Byte) : Bool := decide (0xFF < (lo base).toNat + i.toNat)

/-! ### Pointers in page 0 (R131, R132) -/

/-- The pointer at zero-page address `z`; its second byte wraps inside page 0 (R70). -/
def State.readPointer (z : Byte) (s : State) : Word × State :=
  let l := s.read (zext z)
  let h := l.2.read (zext (z + 1#8))
  (cat h.1 l.1, h.2)

/-! ### Effective addresses -/

/-- Zero-page indexing: dummy read at the unindexed address (R125, R126). -/
def State.zeropageIndexed (i : Byte) (s : State) : Word × State :=
  let z := s.fetch
  (zext (z.1 + i), z.2.dummyRead (zext z.1))

/-- The base address of the two absolute-indexed modes and of (zeropage),Y: the cycles before the un-carried read. -/
def State.indexBase (m : AddrMode) (s : State) : Word × State :=
  match m with
  | .indirectIndexed =>
    let z := s.fetch
    z.2.readPointer z.1
  | _ => s.fetchWord

/-- The index register of the modes that may cross a page. -/
def Cpu.indexOf (c : Cpu) (m : AddrMode) : Byte :=
  match m with
  | .absoluteX => c.x
  | _ => c.y

/-- Base, index and the state after the cycles that fetched them. -/
structure IndexedAddr where
  base : Word
  index : Byte
  state : State

/-- The address cycles of a mode that may cross a page, up to the un-carried read. -/
def State.indexedAddr (m : AddrMode) (s : State) : IndexedAddr :=
  let b := s.indexBase m
  ⟨b.1, s.cpu.indexOf m, b.2⟩

/-- The effective address of the write and RMW classes, with the state after the mode's address cycles: the indexed
modes always read the un-carried address (R124 to R132). -/
def State.effectiveAddr (m : AddrMode) (s : State) : Word × State :=
  match m with
  | .zeropage =>
    let z := s.fetch
    (zext z.1, z.2)
  | .zeropageX => s.zeropageIndexed s.cpu.x
  | .zeropageY => s.zeropageIndexed s.cpu.y
  | .absolute => s.fetchWord
  | .indexedIndirect =>
    let z := s.fetch
    (z.2.dummyRead (zext z.1)).readPointer (z.1 + s.cpu.x)
  | .absoluteX | .absoluteY | .indirectIndexed =>
    let q := s.indexedAddr m
    (indexed q.base q.index, q.state.dummyRead (uncarried q.base q.index))

/-! ### The tails (R135) -/

/-- The read of an indexed mode: the un-carried read, and one more if a page was crossed (R128, R132). -/
def IndexedAddr.readOperand (q : IndexedAddr) : Byte × State :=
  let r := q.state.read (uncarried q.base q.index)
  if pageCrossed q.base q.index then r.2.read (indexed q.base q.index) else r

/-- Read class: the operand byte of a memory mode. -/
def State.loadMem (m : AddrMode) (s : State) : Byte × State :=
  match m with
  | .absoluteX | .absoluteY | .indirectIndexed => (s.indexedAddr m).readOperand
  | .zeropage | .zeropageX | .zeropageY | .absolute | .indexedIndirect =>
    let e := s.effectiveAddr m
    e.2.read e.1

/-- Read class: the operand byte, immediate (R123) or from memory. -/
def State.load (m : ReadMode) (s : State) : Byte × State :=
  match m with
  | .immediate => s.fetch
  | .mem m => s.loadMem m

/-- Write class: `Write(ea, v)`. -/
def State.store (m : AddrMode) (v : Byte) (s : State) : State :=
  let e := s.effectiveAddr m
  e.2.write e.1 v

/-- What a read-modify-write instruction does with the operand: from the old byte and the CPU's registers, the byte
written and the registers after. -/
abbrev RmwOp := Byte → Cpu → Byte × Cpu

/-- A read-modify-write instruction after its dummy write: the address, the old byte, the state. -/
structure Modifying where
  addr : Word
  value : Byte
  state : State

/-- The RMW class up to the dummy write of the old value (R135). -/
def State.beginModify (m : AddrMode) (s : State) : Modifying :=
  let e := s.effectiveAddr m
  let v := e.2.read e.1
  ⟨e.1, v.1, v.2.write e.1 v.1⟩

/-- RMW class: read, write the old value back, write the new value (R135). -/
def State.modify (m : AddrMode) (op : RmwOp) (s : State) : State :=
  let q := s.beginModify m
  let r := op q.value q.state.cpu
  { q.state.write q.addr r.1 with cpu := r.2 }

/-- A shift, INC or DEC as a read-modify-write operation: result to memory, flags to P. -/
def rmwOf (f : Byte → Byte → AluResult) : RmwOp := fun v c =>
  let r := f v c.p
  (r.value, { c with p := r.p })

/-- An unofficial read-modify-write operation: the shift's result goes to memory and, with the shift's flags, to an ALU
operation on A (R236). -/
def rmwThenAlu (f : Byte → Byte → AluResult) (g : Byte → Byte → Byte → AluResult) : RmwOp := fun v c =>
  let r := f v c.p
  let q := g c.a r.value r.p
  (r.value, { c with a := q.value, p := q.p })

/-- Accumulator form: dummy read, then the operation on A (R122). -/
def State.modifyA (f : Byte → Byte → AluResult) (s : State) : State :=
  let s1 := s.dummyFetch
  s1.setAP (f s1.cpu.a s1.cpu.p)

/-- A shift on A or memory. -/
def State.shift (m : RmwMode) (f : Byte → Byte → AluResult) (s : State) : State :=
  match m with
  | .accumulator => s.modifyA f
  | .mem m => s.modify m (rmwOf f)

/-! ### The SH* stores (46_unofficial.md R257) -/

/-- `value` and `addr` of R257: `dma` says that a stall was pending when the dummy read was issued. -/
def shStore (dma : Bool) (base : Word) (i r : Byte) : Word × Byte :=
  let ea := indexed base i
  (if pageCrossed base i then cat (hi ea &&& r) (lo ea) else ea, if dma then r else r &&& (hi base + 1#8))

/-- The store of an SH* instruction with register operand `r` (R257). -/
def State.storeHigh (m : AddrMode) (r : Byte) (s : State) : State :=
  let q := s.indexedAddr m
  let w := shStore (decide (0 < q.state.dev.stall)) q.base q.index r
  (q.state.dummyRead (uncarried q.base q.index)).write w.1 w.2

end Sys2Proof.Machine
end

