-- ==== Sys2Proof/Machine/LoadStore.lean ====
section
/-! DEFINITION. Loads and stores (40_load_store.md R150 to R156). -/

namespace Sys2Proof.Machine

/-- The outcome of a meaning. -/
abbrev Result := Host.Outcome State Fault Refusal

/-- LDA (R151). -/
def execLda (m : ReadMode) (s : State) : Result :=
  let v := s.load m
  .next (v.2.setAP (resultNZ v.1 v.2.cpu.p))

/-- LDX (R152). -/
def execLdx (m : ReadMode) (s : State) : Result :=
  let v := s.load m
  .next (v.2.setXP (resultNZ v.1 v.2.cpu.p))

/-- LDY (R153). -/
def execLdy (m : ReadMode) (s : State) : Result :=
  let v := s.load m
  .next (v.2.setYP (resultNZ v.1 v.2.cpu.p))

/-- STA (R154). -/
def execSta (m : AddrMode) (s : State) : Result := .next (s.store m s.cpu.a)

/-- STX (R155). -/
def execStx (m : AddrMode) (s : State) : Result := .next (s.store m s.cpu.x)

/-- STY (R156). -/
def execSty (m : AddrMode) (s : State) : Result := .next (s.store m s.cpu.y)

end Sys2Proof.Machine
end

