-- ==== Sys2Proof/Machine/Alu.lean ====
section
/-! DEFINITION. Logic, arithmetic and compares (42_alu.md R176 to R186). -/

namespace Sys2Proof.Machine

/-- ORA (R177). -/
def execOra (m : ReadMode) (s : State) : Result :=
  let v := s.load m
  .next (v.2.setAP (resultNZ (v.2.cpu.a ||| v.1) v.2.cpu.p))

/-- AND (R178). -/
def execAnd (m : ReadMode) (s : State) : Result :=
  let v := s.load m
  .next (v.2.setAP (resultNZ (v.2.cpu.a &&& v.1) v.2.cpu.p))

/-- EOR (R179). -/
def execEor (m : ReadMode) (s : State) : Result :=
  let v := s.load m
  .next (v.2.setAP (resultNZ (v.2.cpu.a ^^^ v.1) v.2.cpu.p))

/-- ADC (R180). -/
def execAdc (m : ReadMode) (s : State) : Result :=
  let v := s.load m
  .next (v.2.setAP (adc v.2.cpu.a v.1 v.2.cpu.p))

/-- SBC (R181). -/
def execSbc (m : ReadMode) (s : State) : Result :=
  let v := s.load m
  .next (v.2.setAP (sbc v.2.cpu.a v.1 v.2.cpu.p))

/-- CMP (R182). -/
def execCmp (m : ReadMode) (s : State) : Result :=
  let v := s.load m
  .next (v.2.setP (compare v.2.cpu.a v.1 v.2.cpu.p))

/-- CPX (R183). -/
def execCpx (m : ReadMode) (s : State) : Result :=
  let v := s.load m
  .next (v.2.setP (compare v.2.cpu.x v.1 v.2.cpu.p))

/-- CPY (R184). -/
def execCpy (m : ReadMode) (s : State) : Result :=
  let v := s.load m
  .next (v.2.setP (compare v.2.cpu.y v.1 v.2.cpu.p))

/-- BIT (R185). -/
def execBit (m : AddrMode) (s : State) : Result :=
  let v := s.loadMem m
  .next (v.2.setP (bitTest v.2.cpu.a v.1 v.2.cpu.p))

end Sys2Proof.Machine
end

