-- ==== Sys2Proof/Machine/Control.lean ====
section
/-! DEFINITION. Jumps, subroutines, RTI, BRK, branches (44_control_flow.md R206 to R222). -/

namespace Sys2Proof.Machine

/-- JMP (R206, R207): the indirect pointer's second byte comes from the same page. -/
def execJmp (m : JmpMode) (s : State) : Result :=
  let p := s.fetchWord
  match m with
  | .absolute => .next (p.2.setPc p.1)
  | .indirect =>
    let l := p.2.read p.1
    let h := l.2.read (cat (hi p.1) (lo p.1 + 1#8))
    .next (h.2.setPc (cat h.1 l.1))

/-- JSR (R208): the high operand byte is read after the pushes. -/
def execJsr (s : State) : Result :=
  let ll := s.fetch
  let s1 := (ll.2.dummyRead (stackAddr ll.2.cpu.s)).pushPc
  let hh := s1.read s1.cpu.pc
  .next (hh.2.setPc (cat hh.1 ll.1))

/-- RTS (R209, R223 (a)): low byte, high byte, plus one, whoever pushed them. R502 says otherwise of an RTS that ends an
interrupt handler with the status byte still above S: the model follows R209 (log entry 31). -/
def execRts (s : State) : Result :=
  let l := s.dummyFetch.stackStep.readStackStep
  let h := l.2.readStack
  let s1 := (h.2.setPc (cat h.1 l.1)).dummyFetch
  .next (s1.setPc (s1.cpu.pc + 1#16))

/-- RTI (R210). -/
def execRti (s : State) : Result := .next s.dummyFetch.returnFromInterrupt

/-- BRK (R211): the padding byte is read and stepped over, then the shared entry. -/
def execBrk (s : State) : Result := .next (s.fetch.2.enterHandler .brk)

/-! ### Conditional branches (R214) -/

/-- The IRQ poll of the step as a branch has it (R496): it replaces the poll before the last cycle. -/
def State.setPoll (b : Bool) (s : State) : State := { s with poll := ⟨s.poll.last, b⟩ }

/-- A branch taken from `next`, the address after it, to `target` (R214 C3, C4): one cycle more within a page, two
across pages; `c1` is the poll after C1. -/
def State.takeBranch (c1 : Bool) (next target : Word) (s : State) : State :=
  let s3 := s.dummyFetch
  if hi target = hi next then (s3.setPoll c1).setPc target
  else ((s3.dummyRead (cat (hi next) (lo target))).setPoll (c1 || s3.poll.last)).setPc target

/-- The eight branches (R214). -/
def State.branch (taken : Bool) (s : State) : State :=
  let r := s.fetch
  if taken then r.2.takeBranch s.poll.last r.2.cpu.pc (r.2.cpu.pc + sext r.1) else r.2

/-- BPL (R215). -/
def execBpl (s : State) : Result := .next (s.branch (!bitOf s.cpu.p flagN))

/-- BMI (R216). -/
def execBmi (s : State) : Result := .next (s.branch (bitOf s.cpu.p flagN))

/-- BVC (R217). -/
def execBvc (s : State) : Result := .next (s.branch (!bitOf s.cpu.p flagV))

/-- BVS (R218). -/
def execBvs (s : State) : Result := .next (s.branch (bitOf s.cpu.p flagV))

/-- BCC (R219). -/
def execBcc (s : State) : Result := .next (s.branch (!bitOf s.cpu.p flagC))

/-- BCS (R220). -/
def execBcs (s : State) : Result := .next (s.branch (bitOf s.cpu.p flagC))

/-- BNE (R221). -/
def execBne (s : State) : Result := .next (s.branch (!bitOf s.cpu.p flagZ))

/-- BEQ (R222). -/
def execBeq (s : State) : Result := .next (s.branch (bitOf s.cpu.p flagZ))

end Sys2Proof.Machine
end

