-- ==== Sys2Proof/Machine/FlagOps.lean ====
section
/-! DEFINITION. Flag instructions and the official NOP (45_flags_nop.md R226 to R233). -/

namespace Sys2Proof.Machine

/-- CLC (R226). -/
def execClc (s : State) : Result :=
  let s1 := s.dummyFetch
  .next (s1.setP (setFlag flagC false s1.cpu.p))

/-- SEC (R227). -/
def execSec (s : State) : Result :=
  let s1 := s.dummyFetch
  .next (s1.setP (setFlag flagC true s1.cpu.p))

/-- CLI (R228). -/
def execCli (s : State) : Result :=
  let s1 := s.dummyFetch
  .next (s1.setP (setFlag flagI false s1.cpu.p))

/-- SEI (R229). -/
def execSei (s : State) : Result :=
  let s1 := s.dummyFetch
  .next (s1.setP (setFlag flagI true s1.cpu.p))

/-- CLV (R230). -/
def execClv (s : State) : Result :=
  let s1 := s.dummyFetch
  .next (s1.setP (setFlag flagV false s1.cpu.p))

/-- CLD (R231). -/
def execCld (s : State) : Result :=
  let s1 := s.dummyFetch
  .next (s1.setP (setFlag flagD false s1.cpu.p))

/-- SED (R232). -/
def execSed (s : State) : Result :=
  let s1 := s.dummyFetch
  .next (s1.setP (setFlag flagD true s1.cpu.p))

/-- NOP (R233): the dummy read is all it does. -/
def execNop (s : State) : Result := .next s.dummyFetch

end Sys2Proof.Machine
end

