-- ==== Sys2Proof/Machine/Rmw.lean ====
section
/-! DEFINITION. Shifts, rotates, increments and decrements (43_rmw.md R190 to R200). -/

namespace Sys2Proof.Machine

/-- ASL (R191). -/
def execAsl (m : RmwMode) (s : State) : Result := .next (s.shift m asl)

/-- LSR (R192). -/
def execLsr (m : RmwMode) (s : State) : Result := .next (s.shift m lsr)

/-- ROL (R193). -/
def execRol (m : RmwMode) (s : State) : Result := .next (s.shift m rol)

/-- ROR (R194). -/
def execRor (m : RmwMode) (s : State) : Result := .next (s.shift m ror)

/-- INC (R195). -/
def execInc (m : AddrMode) (s : State) : Result := .next (s.modify m (rmwOf inc))

/-- DEC (R196). -/
def execDec (m : AddrMode) (s : State) : Result := .next (s.modify m (rmwOf dec))

/-- INX (R197). -/
def execInx (s : State) : Result :=
  let s1 := s.dummyFetch
  .next (s1.setXP (inc s1.cpu.x s1.cpu.p))

/-- INY (R198). -/
def execIny (s : State) : Result :=
  let s1 := s.dummyFetch
  .next (s1.setYP (inc s1.cpu.y s1.cpu.p))

/-- DEX (R199). -/
def execDex (s : State) : Result :=
  let s1 := s.dummyFetch
  .next (s1.setXP (dec s1.cpu.x s1.cpu.p))

/-- DEY (R200). -/
def execDey (s : State) : Result :=
  let s1 := s.dummyFetch
  .next (s1.setYP (dec s1.cpu.y s1.cpu.p))

end Sys2Proof.Machine
end

