-- ==== Sys2Proof/Machine/Transfer.lean ====
section
/-! DEFINITION. Register transfers and stack instructions (41_transfer_stack.md R160 to R170). -/

namespace Sys2Proof.Machine

/-- TAX (R161). -/
def execTax (s : State) : Result :=
  let s1 := s.dummyFetch
  .next (s1.setXP (resultNZ s1.cpu.a s1.cpu.p))

/-- TAY (R162). -/
def execTay (s : State) : Result :=
  let s1 := s.dummyFetch
  .next (s1.setYP (resultNZ s1.cpu.a s1.cpu.p))

/-- TXA (R163). -/
def execTxa (s : State) : Result :=
  let s1 := s.dummyFetch
  .next (s1.setAP (resultNZ s1.cpu.x s1.cpu.p))

/-- TYA (R164). -/
def execTya (s : State) : Result :=
  let s1 := s.dummyFetch
  .next (s1.setAP (resultNZ s1.cpu.y s1.cpu.p))

/-- TSX (R165). -/
def execTsx (s : State) : Result :=
  let s1 := s.dummyFetch
  .next (s1.setXP (resultNZ s1.cpu.s s1.cpu.p))

/-- TXS (R166): no flag changes. -/
def execTxs (s : State) : Result :=
  let s1 := s.dummyFetch
  .next (s1.setS s1.cpu.x)

/-- PHA (R167). -/
def execPha (s : State) : Result :=
  let s1 := s.dummyFetch
  .next (s1.push s1.cpu.a)

/-- PHP (R168): pushes P with bits 5 and 4 set. -/
def execPhp (s : State) : Result :=
  let s1 := s.dummyFetch
  .next (s1.push (pushedBySoftware s1.cpu.p))

/-- PLA (R169). -/
def execPla (s : State) : Result :=
  let v := s.dummyFetch.stackStep.readStack
  .next (v.2.setAP (resultNZ v.1 v.2.cpu.p))

/-- PLP (R170). -/
def execPlp (s : State) : Result :=
  let v := s.dummyFetch.stackStep.readStack
  .next (v.2.setP (pulledStatus v.1))

end Sys2Proof.Machine
end

