-- ==== Sys2Proof/Machine/Unofficial.lean ====
section
/-! DEFINITION. The unofficial opcodes (46_unofficial.md R236 to R262). -/

namespace Sys2Proof.Machine

/-- SLO (R237). -/
def execSlo (m : AddrMode) (s : State) : Result := .next (s.modify m (rmwThenAlu asl (fun a v p => resultNZ (a ||| v) p)))

/-- RLA (R238). -/
def execRla (m : AddrMode) (s : State) : Result := .next (s.modify m (rmwThenAlu rol (fun a v p => resultNZ (a &&& v) p)))

/-- SRE (R239). -/
def execSre (m : AddrMode) (s : State) : Result := .next (s.modify m (rmwThenAlu lsr (fun a v p => resultNZ (a ^^^ v) p)))

/-- RRA (R240). -/
def execRra (m : AddrMode) (s : State) : Result := .next (s.modify m (rmwThenAlu ror adc))

/-- DCP (R243). -/
def execDcp (m : AddrMode) (s : State) : Result := .next (s.modify m (rmwThenAlu dec (fun a v p => ⟨a, compare a v p⟩)))

/-- ISC (R244). -/
def execIsc (m : AddrMode) (s : State) : Result := .next (s.modify m (rmwThenAlu inc sbc))

/-- SAX (R241): no flag changes. -/
def execSax (m : AddrMode) (s : State) : Result := .next (s.store m (s.cpu.a &&& s.cpu.x))

/-- LAX (R242). -/
def execLax (m : AddrMode) (s : State) : Result :=
  let v := s.loadMem m
  .next ((v.2.setX v.1).setAP (resultNZ v.1 v.2.cpu.p))

/-- ANC (R245): both opcodes behave alike. -/
def execAnc (_op : Byte) (s : State) : Result :=
  let v := s.fetch
  .next (v.2.setAP (anc v.2.cpu.a v.1 v.2.cpu.p))

/-- ALR (R246). -/
def execAlr (s : State) : Result :=
  let v := s.fetch
  .next (v.2.setAP (alr v.2.cpu.a v.1 v.2.cpu.p))

/-- ARR (R247). -/
def execArr (s : State) : Result :=
  let v := s.fetch
  .next (v.2.setAP (arr v.2.cpu.a v.1 v.2.cpu.p))

/-- AXS (R248). -/
def execAxs (s : State) : Result :=
  let v := s.fetch
  .next (v.2.setXP (axs v.2.cpu.a v.2.cpu.x v.1 v.2.cpu.p))

/-- ANE (R249): `ANE_CONST` is a parameter. -/
def execAne (s : State) : Result :=
  let v := s.fetch
  .next (v.2.setAP (ane s.params.aneConst v.2.cpu.a v.2.cpu.x v.1 v.2.cpu.p))

/-- LXA (R250): `LXA_CONST` is a parameter. -/
def execLxa (s : State) : Result :=
  let v := s.fetch
  let r := lxa s.params.lxaConst v.2.cpu.a v.1 v.2.cpu.p
  .next ((v.2.setX r.value).setAP r)

/-- SBC, opcode EB (R251). -/
def execSbcUnofficial (s : State) : Result :=
  let v := s.fetch
  .next (v.2.setAP (sbc v.2.cpu.a v.1 v.2.cpu.p))

/-- The memory mode of SHA's two forms (R252). -/
def shaAddrMode : ShaMode → AddrMode
  | .absoluteY => .absoluteY
  | .indirectIndexed => .indirectIndexed

/-- SHA (R252). -/
def execSha (m : ShaMode) (s : State) : Result := .next (s.storeHigh (shaAddrMode m) (s.cpu.a &&& s.cpu.x))

/-- SHX (R253). -/
def execShx (s : State) : Result := .next (s.storeHigh .absoluteY s.cpu.x)

/-- SHY (R254). -/
def execShy (s : State) : Result := .next (s.storeHigh .absoluteX s.cpu.y)

/-- SHS (R255): S first, then the store. -/
def execShs (s : State) : Result :=
  let s1 := s.setS (s.cpu.a &&& s.cpu.x)
  .next (s1.storeHigh .absoluteY s1.cpu.s)

/-- LAS (R256). -/
def execLas (s : State) : Result :=
  let v := s.loadMem .absoluteY
  let t := v.1 &&& v.2.cpu.s
  .next (((v.2.setS t).setX t).setAP (resultNZ t v.2.cpu.p))

/-- NOP implied (R258). -/
def execNopImplied (_op : Byte) (s : State) : Result := .next s.dummyFetch

/-- NOP immediate (R259). -/
def execNopImmediate (_op : Byte) (s : State) : Result := .next (s.load .immediate).2

/-- NOP zeropage (R260). -/
def execNopZeropage (_op : Byte) (s : State) : Result := .next (s.loadMem .zeropage).2

/-- NOP zeropage,X (R260). -/
def execNopZeropageX (_op : Byte) (s : State) : Result := .next (s.loadMem .zeropageX).2

/-- NOP absolute (R260). -/
def execNopAbsolute (s : State) : Result := .next (s.loadMem .absolute).2

/-- NOP absolute,X (R261). -/
def execNopAbsoluteX (_op : Byte) (s : State) : Result := .next (s.loadMem .absoluteX).2

/-- JAM (R262): PC is back at the opcode and the CPU is jammed. -/
def execJam (_op : Byte) (s : State) : Result :=
  .next { s with cpu := { s.cpu with pc := s.cpu.pc - 1#16, jammed := true } }

end Sys2Proof.Machine
end

