-- ==== Sys2Proof/WellFormed.lean ====
section
/-! DEFINITION. Which terms of `Instr` are instructions: the (mnemonic, addressing mode) pairs that are rows of
spec/opcode_table.json (30_encoding.md R105), and, where a constructor carries its opcode byte, the bytes the table
gives that form (R107). -/

namespace Sys2Proof

namespace WellFormed

/-- The modes of column cc = 01: ORA AND EOR ADC LDA CMP SBC (42_alu.md R176, 40_load_store.md R151). -/
def aluModes : List ReadMode :=
  [.immediate, .mem .zeropage, .mem .zeropageX, .mem .absolute, .mem .absoluteX, .mem .absoluteY,
   .mem .indexedIndirect, .mem .indirectIndexed]

/-- LDX (R152). -/
def ldxModes : List ReadMode :=
  [.immediate, .mem .zeropage, .mem .zeropageY, .mem .absolute, .mem .absoluteY]

/-- LDY (R153). -/
def ldyModes : List ReadMode :=
  [.immediate, .mem .zeropage, .mem .zeropageX, .mem .absolute, .mem .absoluteX]

/-- CPX and CPY (42_alu.md R183, R184). -/
def compareIndexModes : List ReadMode := [.immediate, .mem .zeropage, .mem .absolute]

/-- STA (R154), and SLO RLA SRE RRA DCP ISC (46_unofficial.md R236). -/
def storeModes : List AddrMode :=
  [.zeropage, .zeropageX, .absolute, .absoluteX, .absoluteY, .indexedIndirect, .indirectIndexed]

/-- STX (R155). -/
def stxModes : List AddrMode := [.zeropage, .zeropageY, .absolute]

/-- STY (R156). -/
def styModes : List AddrMode := [.zeropage, .zeropageX, .absolute]

/-- BIT (R185). -/
def bitModes : List AddrMode := [.zeropage, .absolute]

/-- The memory forms of ASL LSR ROL ROR, and INC DEC (43_rmw.md R191 to R196). -/
def rmwModes : List AddrMode := [.zeropage, .zeropageX, .absolute, .absoluteX]

/-- SAX (R241). -/
def saxModes : List AddrMode := [.zeropage, .zeropageY, .absolute, .indexedIndirect]

/-- LAX (R242). -/
def laxModes : List AddrMode :=
  [.zeropage, .zeropageY, .absolute, .absoluteY, .indexedIndirect, .indirectIndexed]

/-- ANC (R245). -/
def ancOpcodes : List Byte := [0x0B#8, 0x2B#8]

/-- R258. -/
def nopImpliedOpcodes : List Byte := [0x1A#8, 0x3A#8, 0x5A#8, 0x7A#8, 0xDA#8, 0xFA#8]

/-- R259. -/
def nopImmediateOpcodes : List Byte := [0x80#8, 0x82#8, 0x89#8, 0xC2#8, 0xE2#8]

/-- R260, zeropage. -/
def nopZeropageOpcodes : List Byte := [0x04#8, 0x44#8, 0x64#8]

/-- R260, zeropage,X. -/
def nopZeropageXOpcodes : List Byte := [0x14#8, 0x34#8, 0x54#8, 0x74#8, 0xD4#8, 0xF4#8]

/-- R261. -/
def nopAbsoluteXOpcodes : List Byte := [0x1C#8, 0x3C#8, 0x5C#8, 0x7C#8, 0xDC#8, 0xFC#8]

/-- R262. -/
def jamOpcodes : List Byte :=
  [0x02#8, 0x12#8, 0x22#8, 0x32#8, 0x42#8, 0x52#8, 0x62#8, 0x72#8, 0x92#8, 0xB2#8, 0xD2#8, 0xF2#8]

/-- The shifts' modes: A or memory. -/
def shiftWf : RmwMode → Bool
  | .accumulator => true
  | .mem m => rmwModes.contains m

end WellFormed

open WellFormed in
/-- `i.wf`: `i` is a row of the opcode table. -/
def Instr.wf : Instr → Bool
  | .lda m => aluModes.contains m
  | .ldx m => ldxModes.contains m
  | .ldy m => ldyModes.contains m
  | .sta m => storeModes.contains m
  | .stx m => stxModes.contains m
  | .sty m => styModes.contains m
  | .tax => true
  | .tay => true
  | .txa => true
  | .tya => true
  | .tsx => true
  | .txs => true
  | .pha => true
  | .php => true
  | .pla => true
  | .plp => true
  | .ora m => aluModes.contains m
  | .and m => aluModes.contains m
  | .eor m => aluModes.contains m
  | .adc m => aluModes.contains m
  | .sbc m => aluModes.contains m
  | .cmp m => aluModes.contains m
  | .cpx m => compareIndexModes.contains m
  | .cpy m => compareIndexModes.contains m
  | .bit m => bitModes.contains m
  | .asl m => shiftWf m
  | .lsr m => shiftWf m
  | .rol m => shiftWf m
  | .ror m => shiftWf m
  | .inc m => rmwModes.contains m
  | .dec m => rmwModes.contains m
  | .inx => true
  | .iny => true
  | .dex => true
  | .dey => true
  | .jmp _ => true
  | .jsr => true
  | .rts => true
  | .rti => true
  | .brk => true
  | .bpl => true
  | .bmi => true
  | .bvc => true
  | .bvs => true
  | .bcc => true
  | .bcs => true
  | .bne => true
  | .beq => true
  | .clc => true
  | .sec => true
  | .cli => true
  | .sei => true
  | .clv => true
  | .cld => true
  | .sed => true
  | .nop => true
  | .slo m => storeModes.contains m
  | .rla m => storeModes.contains m
  | .sre m => storeModes.contains m
  | .rra m => storeModes.contains m
  | .dcp m => storeModes.contains m
  | .isc m => storeModes.contains m
  | .sax m => saxModes.contains m
  | .lax m => laxModes.contains m
  | .anc op => ancOpcodes.contains op
  | .alr => true
  | .arr => true
  | .axs => true
  | .ane => true
  | .lxa => true
  | .sbcUnofficial => true
  | .sha _ => true
  | .shx => true
  | .shy => true
  | .shs => true
  | .las => true
  | .nopImplied op => nopImpliedOpcodes.contains op
  | .nopImmediate op => nopImmediateOpcodes.contains op
  | .nopZeropage op => nopZeropageOpcodes.contains op
  | .nopZeropageX op => nopZeropageXOpcodes.contains op
  | .nopAbsolute => true
  | .nopAbsoluteX op => nopAbsoluteXOpcodes.contains op
  | .jam op => jamOpcodes.contains op

end Sys2Proof
end

