-- ==== Sys2Proof/Decode.lean ====
section
/-! DEFINITION. Decoding and encoding (30_encoding.md R100 to R113). The decoder is the opcode matrix of R105; the
encoder is written from the family files' encoding lists and the bit regularity of R102, so that their agreement
(decode of encode) compares two descriptions of the spec. Operand bytes are assembled as R103 says. -/

namespace Sys2Proof

/-! ### The opcode matrix (R105): row = high nibble, column = low nibble -/

/-- Row 0x of the opcode matrix. -/
def opcodeRow0 : List Instr :=
  [.brk, .ora (.mem .indexedIndirect), .jam 0x02#8, .slo .indexedIndirect,
   .nopZeropage 0x04#8, .ora (.mem .zeropage), .asl (.mem .zeropage), .slo .zeropage,
   .php, .ora .immediate, .asl .accumulator, .anc 0x0B#8,
   .nopAbsolute, .ora (.mem .absolute), .asl (.mem .absolute), .slo .absolute]

/-- Row 1x of the opcode matrix. -/
def opcodeRow1 : List Instr :=
  [.bpl, .ora (.mem .indirectIndexed), .jam 0x12#8, .slo .indirectIndexed,
   .nopZeropageX 0x14#8, .ora (.mem .zeropageX), .asl (.mem .zeropageX), .slo .zeropageX,
   .clc, .ora (.mem .absoluteY), .nopImplied 0x1A#8, .slo .absoluteY,
   .nopAbsoluteX 0x1C#8, .ora (.mem .absoluteX), .asl (.mem .absoluteX), .slo .absoluteX]

/-- Row 2x of the opcode matrix. -/
def opcodeRow2 : List Instr :=
  [.jsr, .and (.mem .indexedIndirect), .jam 0x22#8, .rla .indexedIndirect,
   .bit .zeropage, .and (.mem .zeropage), .rol (.mem .zeropage), .rla .zeropage,
   .plp, .and .immediate, .rol .accumulator, .anc 0x2B#8,
   .bit .absolute, .and (.mem .absolute), .rol (.mem .absolute), .rla .absolute]

/-- Row 3x of the opcode matrix. -/
def opcodeRow3 : List Instr :=
  [.bmi, .and (.mem .indirectIndexed), .jam 0x32#8, .rla .indirectIndexed,
   .nopZeropageX 0x34#8, .and (.mem .zeropageX), .rol (.mem .zeropageX), .rla .zeropageX,
   .sec, .and (.mem .absoluteY), .nopImplied 0x3A#8, .rla .absoluteY,
   .nopAbsoluteX 0x3C#8, .and (.mem .absoluteX), .rol (.mem .absoluteX), .rla .absoluteX]

/-- Row 4x of the opcode matrix. -/
def opcodeRow4 : List Instr :=
  [.rti, .eor (.mem .indexedIndirect), .jam 0x42#8, .sre .indexedIndirect,
   .nopZeropage 0x44#8, .eor (.mem .zeropage), .lsr (.mem .zeropage), .sre .zeropage,
   .pha, .eor .immediate, .lsr .accumulator, .alr,
   .jmp .absolute, .eor (.mem .absolute), .lsr (.mem .absolute), .sre .absolute]

/-- Row 5x of the opcode matrix. -/
def opcodeRow5 : List Instr :=
  [.bvc, .eor (.mem .indirectIndexed), .jam 0x52#8, .sre .indirectIndexed,
   .nopZeropageX 0x54#8, .eor (.mem .zeropageX), .lsr (.mem .zeropageX), .sre .zeropageX,
   .cli, .eor (.mem .absoluteY), .nopImplied 0x5A#8, .sre .absoluteY,
   .nopAbsoluteX 0x5C#8, .eor (.mem .absoluteX), .lsr (.mem .absoluteX), .sre .absoluteX]

/-- Row 6x of the opcode matrix. -/
def opcodeRow6 : List Instr :=
  [.rts, .adc (.mem .indexedIndirect), .jam 0x62#8, .rra .indexedIndirect,
   .nopZeropage 0x64#8, .adc (.mem .zeropage), .ror (.mem .zeropage), .rra .zeropage,
   .pla, .adc .immediate, .ror .accumulator, .arr,
   .jmp .indirect, .adc (.mem .absolute), .ror (.mem .absolute), .rra .absolute]

/-- Row 7x of the opcode matrix. -/
def opcodeRow7 : List Instr :=
  [.bvs, .adc (.mem .indirectIndexed), .jam 0x72#8, .rra .indirectIndexed,
   .nopZeropageX 0x74#8, .adc (.mem .zeropageX), .ror (.mem .zeropageX), .rra .zeropageX,
   .sei, .adc (.mem .absoluteY), .nopImplied 0x7A#8, .rra .absoluteY,
   .nopAbsoluteX 0x7C#8, .adc (.mem .absoluteX), .ror (.mem .absoluteX), .rra .absoluteX]

/-- Row 8x of the opcode matrix. -/
def opcodeRow8 : List Instr :=
  [.nopImmediate 0x80#8, .sta .indexedIndirect, .nopImmediate 0x82#8, .sax .indexedIndirect,
   .sty .zeropage, .sta .zeropage, .stx .zeropage, .sax .zeropage,
   .dey, .nopImmediate 0x89#8, .txa, .ane,
   .sty .absolute, .sta .absolute, .stx .absolute, .sax .absolute]

/-- Row 9x of the opcode matrix. -/
def opcodeRow9 : List Instr :=
  [.bcc, .sta .indirectIndexed, .jam 0x92#8, .sha .indirectIndexed,
   .sty .zeropageX, .sta .zeropageX, .stx .zeropageY, .sax .zeropageY,
   .tya, .sta .absoluteY, .txs, .shs,
   .shy, .sta .absoluteX, .shx, .sha .absoluteY]

/-- Row Ax of the opcode matrix. -/
def opcodeRowA : List Instr :=
  [.ldy .immediate, .lda (.mem .indexedIndirect), .ldx .immediate, .lax .indexedIndirect,
   .ldy (.mem .zeropage), .lda (.mem .zeropage), .ldx (.mem .zeropage), .lax .zeropage,
   .tay, .lda .immediate, .tax, .lxa,
   .ldy (.mem .absolute), .lda (.mem .absolute), .ldx (.mem .absolute), .lax .absolute]

/-- Row Bx of the opcode matrix. -/
def opcodeRowB : List Instr :=
  [.bcs, .lda (.mem .indirectIndexed), .jam 0xB2#8, .lax .indirectIndexed,
   .ldy (.mem .zeropageX), .lda (.mem .zeropageX), .ldx (.mem .zeropageY), .lax .zeropageY,
   .clv, .lda (.mem .absoluteY), .tsx, .las,
   .ldy (.mem .absoluteX), .lda (.mem .absoluteX), .ldx (.mem .absoluteY), .lax .absoluteY]

/-- Row Cx of the opcode matrix. -/
def opcodeRowC : List Instr :=
  [.cpy .immediate, .cmp (.mem .indexedIndirect), .nopImmediate 0xC2#8, .dcp .indexedIndirect,
   .cpy (.mem .zeropage), .cmp (.mem .zeropage), .dec .zeropage, .dcp .zeropage,
   .iny, .cmp .immediate, .dex, .axs,
   .cpy (.mem .absolute), .cmp (.mem .absolute), .dec .absolute, .dcp .absolute]

/-- Row Dx of the opcode matrix. -/
def opcodeRowD : List Instr :=
  [.bne, .cmp (.mem .indirectIndexed), .jam 0xD2#8, .dcp .indirectIndexed,
   .nopZeropageX 0xD4#8, .cmp (.mem .zeropageX), .dec .zeropageX, .dcp .zeropageX,
   .cld, .cmp (.mem .absoluteY), .nopImplied 0xDA#8, .dcp .absoluteY,
   .nopAbsoluteX 0xDC#8, .cmp (.mem .absoluteX), .dec .absoluteX, .dcp .absoluteX]

/-- Row Ex of the opcode matrix. -/
def opcodeRowE : List Instr :=
  [.cpx .immediate, .sbc (.mem .indexedIndirect), .nopImmediate 0xE2#8, .isc .indexedIndirect,
   .cpx (.mem .zeropage), .sbc (.mem .zeropage), .inc .zeropage, .isc .zeropage,
   .inx, .sbc .immediate, .nop, .sbcUnofficial,
   .cpx (.mem .absolute), .sbc (.mem .absolute), .inc .absolute, .isc .absolute]

/-- Row Fx of the opcode matrix. -/
def opcodeRowF : List Instr :=
  [.beq, .sbc (.mem .indirectIndexed), .jam 0xF2#8, .isc .indirectIndexed,
   .nopZeropageX 0xF4#8, .sbc (.mem .zeropageX), .inc .zeropageX, .isc .zeropageX,
   .sed, .sbc (.mem .absoluteY), .nopImplied 0xFA#8, .isc .absoluteY,
   .nopAbsoluteX 0xFC#8, .sbc (.mem .absoluteX), .inc .absoluteX, .isc .absoluteX]

/-- The complete opcode matrix (R105). -/
def opcodeMatrix : List (List Instr) :=
  [opcodeRow0, opcodeRow1, opcodeRow2, opcodeRow3] ++ [opcodeRow4, opcodeRow5, opcodeRow6, opcodeRow7] ++
  [opcodeRow8, opcodeRow9, opcodeRowA, opcodeRowB] ++ [opcodeRowC, opcodeRowD, opcodeRowE, opcodeRowF]

/-- The instruction an opcode byte stands for: every one of the 256 has one (R109), so the default of `getD` is never
taken. -/
def decodeOpcode (op : Byte) : Instr :=
  (opcodeMatrix.getD (op.toNat / 16) []).getD (op.toNat % 16) .nop

/-! ### Operands (R101, R103) -/

/-- The operand field of an instruction: none (format F1), one byte (`imm8`, `zp8` or `rel8`, F2), or the two bytes of
`addr16`, low byte first in the stream (F3). -/
inductive Operand where
  | none
  | byte (b : Byte)
  | word (w : Word)
  deriving DecidableEq, Repr

/-- Operand bytes of a memory mode (R101, R104). -/
def AddrMode.operandBytes : AddrMode → Nat
  | .zeropage | .zeropageX | .zeropageY | .indexedIndirect | .indirectIndexed => 1
  | .absolute | .absoluteX | .absoluteY => 2

/-- Operand bytes of a read-class operand. -/
def ReadMode.operandBytes : ReadMode → Nat
  | .immediate => 1
  | .mem m => m.operandBytes

/-- Operand bytes of a shift's operand. -/
def RmwMode.operandBytes : RmwMode → Nat
  | .accumulator => 0
  | .mem m => m.operandBytes

/-- How many operand bytes follow the opcode (R101; column `bytes` of the table, less one). BRK's padding byte is not
an operand: the table gives BRK one byte (44_control_flow.md R211). -/
def Instr.operandBytes : Instr → Nat
  | .lda m | .ldx m | .ldy m | .ora m | .and m | .eor m | .adc m | .sbc m | .cmp m | .cpx m | .cpy m => m.operandBytes
  | .sta m | .stx m | .sty m | .bit m | .inc m | .dec m => m.operandBytes
  | .slo m | .rla m | .sre m | .rra m | .dcp m | .isc m | .sax m | .lax m => m.operandBytes
  | .asl m | .lsr m | .rol m | .ror m => m.operandBytes
  | .tax | .tay | .txa | .tya | .tsx | .txs | .pha | .php | .pla | .plp => 0
  | .inx | .iny | .dex | .dey => 0
  | .jmp _ | .jsr => 2
  | .rts | .rti | .brk => 0
  | .bpl | .bmi | .bvc | .bvs | .bcc | .bcs | .bne | .beq => 1
  | .clc | .sec | .cli | .sei | .clv | .cld | .sed | .nop => 0
  | .anc _ | .alr | .arr | .axs | .ane | .lxa | .sbcUnofficial => 1
  | .sha .absoluteY => 2
  | .sha .indirectIndexed => 1
  | .shx | .shy | .shs | .las => 2
  | .nopImplied _ | .jam _ => 0
  | .nopImmediate _ | .nopZeropage _ | .nopZeropageX _ => 1
  | .nopAbsolute | .nopAbsoluteX _ => 2

/-- Does an operand have the size the instruction's format asks for (R101)? -/
def Operand.fits (o : Operand) (i : Instr) : Bool :=
  match o with
  | .none => i.operandBytes == 0
  | .byte _ => i.operandBytes == 1
  | .word _ => i.operandBytes == 2

/-- Why a byte sequence is not an instruction. No opcode byte is ever the reason (R109). -/
inductive DecodeError where
  /-- there is no byte at all -/
  | noBytes
  /-- the stream ends before the operand of the instruction the opcode names -/
  | truncated (op : Byte)
  deriving DecidableEq, Repr

/-- A decoded instruction, its operand, and the bytes after it. -/
structure Decoded where
  instr : Instr
  operand : Operand
  rest : List Byte
  deriving DecidableEq, Repr

/-- `hh : ll` (R103). -/
def addr16 (ll hh : Byte) : Word := hh ++ ll

/-- Decode one instruction from the front of a byte stream (R100, R101, R103). -/
def decode : List Byte → Except DecodeError Decoded
  | [] => .error .noBytes
  | op :: rest =>
    let i := decodeOpcode op
    match i.operandBytes, rest with
    | 0, _ => .ok ⟨i, .none, rest⟩
    | 1, b :: rest' => .ok ⟨i, .byte b, rest'⟩
    | 2, ll :: hh :: rest' => .ok ⟨i, .word (addr16 ll hh), rest'⟩
    | _, _ => .error (.truncated op)

/-! ### Encoding -/

/-- `aaabbbcc` (R102): operation, addressing mode, group. -/
def opcodeOf (aaa : Nat) (bbb : Nat) (cc : Nat) : Byte := BitVec.ofNat 8 (aaa * 32 + bbb * 4 + cc)

/-- The `bbb` field of the groups cc = 01 and cc = 11 (R102), and of cc = 10 where they agree. -/
def AddrMode.bbb : AddrMode → Nat
  | .indexedIndirect => 0
  | .zeropage => 1
  | .absolute => 3
  | .indirectIndexed => 4
  | .zeropageX => 5
  | .zeropageY => 5
  | .absoluteY => 6
  | .absoluteX => 7

/-- Group cc = 01: ORA AND EOR ADC STA LDA CMP SBC by `aaa`; immediate is `bbb` = 2 (R102). -/
def encodeAlu (aaa : Nat) : ReadMode → Byte
  | .immediate => opcodeOf aaa 2 1
  | .mem m => opcodeOf aaa m.bbb 1

/-- Group cc = 10, shifts: ASL ROL LSR ROR by `aaa`; the accumulator form is `bbb` = 2 (R102). -/
def encodeShift (aaa : Nat) : RmwMode → Byte
  | .accumulator => opcodeOf aaa 2 2
  | .mem m => opcodeOf aaa m.bbb 2

/-- LDX: cc = 10 with immediate `bbb` = 0 and abs,Y in the place of abs,X (R102, R152). -/
def encodeLdx : ReadMode → Byte
  | .immediate => 0xA2#8
  | .mem .absoluteY => 0xBE#8
  | .mem m => opcodeOf 5 m.bbb 2

/-- The index compares and LDY: group cc = 00 with immediate `bbb` = 0 (R153, R183, R184). -/
def encodeIndex (aaa : Nat) : ReadMode → Byte
  | .immediate => opcodeOf aaa 0 0
  | .mem m => opcodeOf aaa m.bbb 0

/-- LAX: abs,Y stands in the abs,X column of group cc = 11 (R242). -/
def encodeLax : AddrMode → Byte
  | .absoluteY => 0xBF#8
  | m => opcodeOf 5 m.bbb 3

/-- The opcode byte of a well-formed instruction (R102 and the *Encodings* lists of files 40 to 46). -/
def opcodeByte : Instr → Byte
  | .ora m => encodeAlu 0 m
  | .and m => encodeAlu 1 m
  | .eor m => encodeAlu 2 m
  | .adc m => encodeAlu 3 m
  | .sta m => opcodeOf 4 m.bbb 1
  | .lda m => encodeAlu 5 m
  | .cmp m => encodeAlu 6 m
  | .sbc m => encodeAlu 7 m
  | .asl m => encodeShift 0 m
  | .rol m => encodeShift 1 m
  | .lsr m => encodeShift 2 m
  | .ror m => encodeShift 3 m
  | .stx m => opcodeOf 4 m.bbb 2
  | .ldx m => encodeLdx m
  | .dec m => opcodeOf 6 m.bbb 2
  | .inc m => opcodeOf 7 m.bbb 2
  | .bit m => opcodeOf 1 m.bbb 0
  | .sty m => opcodeOf 4 m.bbb 0
  | .ldy m => encodeIndex 5 m
  | .cpy m => encodeIndex 6 m
  | .cpx m => encodeIndex 7 m
  | .slo m => opcodeOf 0 m.bbb 3
  | .rla m => opcodeOf 1 m.bbb 3
  | .sre m => opcodeOf 2 m.bbb 3
  | .rra m => opcodeOf 3 m.bbb 3
  | .sax m => opcodeOf 4 m.bbb 3
  | .lax m => encodeLax m
  | .dcp m => opcodeOf 6 m.bbb 3
  | .isc m => opcodeOf 7 m.bbb 3
  | .tax => 0xAA#8
  | .tay => 0xA8#8
  | .txa => 0x8A#8
  | .tya => 0x98#8
  | .tsx => 0xBA#8
  | .txs => 0x9A#8
  | .pha => 0x48#8
  | .php => 0x08#8
  | .pla => 0x68#8
  | .plp => 0x28#8
  | .inx => 0xE8#8
  | .iny => 0xC8#8
  | .dex => 0xCA#8
  | .dey => 0x88#8
  | .jmp .absolute => 0x4C#8
  | .jmp .indirect => 0x6C#8
  | .jsr => 0x20#8
  | .rts => 0x60#8
  | .rti => 0x40#8
  | .brk => 0x00#8
  | .bpl => 0x10#8
  | .bmi => 0x30#8
  | .bvc => 0x50#8
  | .bvs => 0x70#8
  | .bcc => 0x90#8
  | .bcs => 0xB0#8
  | .bne => 0xD0#8
  | .beq => 0xF0#8
  | .clc => 0x18#8
  | .sec => 0x38#8
  | .cli => 0x58#8
  | .sei => 0x78#8
  | .clv => 0xB8#8
  | .cld => 0xD8#8
  | .sed => 0xF8#8
  | .nop => 0xEA#8
  | .anc op => op
  | .alr => 0x4B#8
  | .arr => 0x6B#8
  | .axs => 0xCB#8
  | .ane => 0x8B#8
  | .lxa => 0xAB#8
  | .sbcUnofficial => 0xEB#8
  | .sha .absoluteY => 0x9F#8
  | .sha .indirectIndexed => 0x93#8
  | .shx => 0x9E#8
  | .shy => 0x9C#8
  | .shs => 0x9B#8
  | .las => 0xBB#8
  | .nopImplied op => op
  | .nopImmediate op => op
  | .nopZeropage op => op
  | .nopZeropageX op => op
  | .nopAbsolute => 0x0C#8
  | .nopAbsoluteX op => op
  | .jam op => op

/-- The operand's bytes in stream order: little-endian (R101, 20_memory.md R67). -/
def Operand.bytes : Operand → List Byte
  | .none => []
  | .byte b => [b]
  | .word w => [w.extractLsb' 0 8, w.extractLsb' 8 8]

/-- The bytes of an instruction with its operand. -/
def encode (i : Instr) (o : Operand) : List Byte := opcodeByte i :: o.bytes

/-! ### The host's reading of a table word -/

/-- The bytes of a table word as the hardware stores them, first byte lowest, up to the longest instruction (three
bytes, R100); the bits above `nbits` are 0. -/
def tableWordBytes (nbits w : Nat) : List Byte :=
  let v := w % 2 ^ nbits
  [BitVec.ofNat 8 v, BitVec.ofNat 8 (v / 256), BitVec.ofNat 8 (v / 65536)]

/-- The instruction the decoder reads from a word of spec/opcode_table.json. -/
def decodeTableWord (nbits w : Nat) : Option Instr :=
  match decode (tableWordBytes nbits w) with
  | .ok d => some d.instr
  | .error _ => none

end Sys2Proof
end

