-- ==== Sys2Proof/Machine/Place.lean ====
section
/-! DEFINITION. Placing an instruction's bytes where the next fetch reads them: the helpers of `withFetchWord`
(Step.lean). -/

namespace Sys2Proof.Machine

/-- The state with byte `v` stored where a CPU read of `a` finds it; `none` where a read of `a` is not a memory's. -/
def State.placeByte (a : Word) (v : Byte) (s : State) : Option State :=
  match busTarget a with
  | .ram i => some { s with mem := { s.mem with ram := s.mem.ram.write i v } }
  | .ppu _ => none
  | .io _ => none
  | .cart =>
    match s.dev.mapper.cpuMap s.cart a with
    | .rom o => some { s with cart := { s.cart with prgRom := s.cart.prgRom.write o v } }
    | .ram o => some { s with mem := { s.mem with prgRam := s.mem.prgRam.write o v } }
    | .exRam o => some { s with mem := { s.mem with exRam := s.mem.exRam.write o v } }
    | .reg _ => none
    | .unhandled => none

/-- The bytes placed from `a` on. -/
def State.placeBytes (a : Word) : List Byte → State → Option State
  | [], s => some s
  | b :: rest, s =>
    match s.placeByte a b with
    | some s' => State.placeBytes (a + 1#16) rest s'
    | none => none

/-- The bytes placed from address 0 on, in RAM. -/
def State.placeInRam : Nat → List Byte → State → State
  | _, [], s => s
  | i, b :: rest, s =>
    State.placeInRam (i + 1) rest { s with mem := { s.mem with ram := s.mem.ram.write i b } }

/-- The state whose next step fetches at PC: nothing is pending and the CPU is not jammed. -/
def State.readyToFetch (s : State) : State :=
  { s with
    cpu := { s.cpu with irqLatch := false, jammed := false }
    dev := { s.dev with nmiRequest := false } }

/-- The bytes placed where the next step fetches: at PC if its bytes lie in memories, else at address 0 with PC there. -/
def State.placeAtPc (bytes : List Byte) (s : State) : State :=
  match s.placeBytes s.cpu.pc bytes with
  | some s' => s'
  | none => ({ s with cpu := { s.cpu with pc := 0x0000#16 } }).placeInRam 0 bytes

end Sys2Proof.Machine
end

