-- ==== Sys2Proof/Machine/Step.lean ====
section
/-! DEFINITION. `Step()` (60_exceptions.md R490): one instruction or one interrupt entry. -/

namespace Sys2Proof.Machine

/-- The end of the step, when the meaning gave a next state. -/
def finish (r : Result) : Result :=
  match r with
  | .next s => .next s.endStep
  | .fault f => .fault f
  | .refused f => .refused f

/-- Fetch, decode, execute one instruction. -/
def runInstruction (s : State) : Result :=
  let op := s.fetch
  finish (exec (decodeOpcode op.1) op.2)

/-- One step of the machine (R490). -/
def step (s : State) : Host.Outcome State Fault Refusal :=
  let s1 := s.beginStep
  if s1.cpu.jammed then .next s1.jammedStep
  else match s1.pendingEvent with
    | some .nmi => .next s1.nmiStep.endStep
    | some k => .next (s1.interruptEntry k).endStep
    | none => runInstruction s1

/-- `s` with an instruction of the table, given as a word, placed where the next step fetches it. -/
def State.withFetchWord (s : State) (nbits w : Nat) : State := s.readyToFetch.placeAtPc (tableWordBytes nbits w)

end Sys2Proof.Machine
end

