-- ==== Sys2Proof/Machine/Cartridge.lean ====
section
/-! DEFINITION. The iNES image and the construction of the machine (53_cartridge_mappers.md R420 to R424,
70_reset_and_hazards.md R530). -/

namespace Sys2Proof.Machine

/-- Why a load fails (R423); then there is no machine. -/
inductive LoadError where
  /-- the image is shorter than the 16-byte header -/
  | tooShort
  | badMagic
  | noPrg
  | unsupportedMapper (id : Nat)
  /-- the image is shorter than its header declares -/
  | truncated
  deriving DecidableEq, Repr

/-- The header fields that are read (R420). -/
structure Header where
  prgBanks : Nat
  chrBanks : Nat
  vertical : Bool
  trainer : Bool
  mapperId : Nat
  deriving DecidableEq, Repr

/-- Bytes 4 to 7 of an image (R420). -/
def parseHeader (image : List Byte) : Header :=
  let b6 := image.getD 6 0#8
  let b7 := image.getD 7 0#8
  ⟨(image.getD 4 0#8).toNat, (image.getD 5 0#8).toNat, bitOf b6 0, bitOf b6 2, ((b7 &&& 0xF0#8) ||| (b6 >>> 4)).toNat⟩

/-- `N E S 0x1A`. -/
def inesMagic : List Byte := [0x4E#8, 0x45#8, 0x53#8, 0x1A#8]

/-- The mirroring of the header bit (R422). -/
def Header.mirroring (h : Header) : Mirroring := if h.vertical then .vertical else .horizontal

/-- Where PRG data starts: after the header and the skipped trainer (R421). -/
def Header.prgStart (h : Header) : Nat := if h.trainer then 16 + 512 else 16

/-- Where CHR data starts. -/
def Header.chrStart (h : Header) : Nat := h.prgStart + h.prgBanks * 16384

/-- How many bytes the header declares. -/
def Header.imageSize (h : Header) : Nat := h.chrStart + h.chrBanks * 8192

/-- What a load yields (R424): the image, the CHR contents, the mapper at power-on. -/
structure Loaded where
  cart : Cart
  chr : Memory
  mapper : Mapper
  deriving DecidableEq, Repr

/-- The cartridge of a header and its image, once the load has not failed (R421, R424). -/
def Header.build (h : Header) (image : List Byte) (mapper : Mapper) : Loaded where
  cart :=
    { prgRom := Memory.ofBytes 0 ((image.drop h.prgStart).take (h.prgBanks * 16384))
      prgBanks := h.prgBanks
      chrBanks := if h.chrBanks = 0 then 1 else h.chrBanks
      chrIsRam := decide (h.chrBanks = 0)
      mirrorHdr := h.mirroring }
  chr := Memory.ofBytes 0 ((image.drop h.chrStart).take (h.chrBanks * 8192))
  mapper := mapper

/-- The load operation (R420 to R424). -/
def loadImage (image : List Byte) : Except LoadError Loaded :=
  let h := parseHeader image
  if image.length < 16 then .error .tooShort
  else if image.take 4 ≠ inesMagic then .error .badMagic
  else if h.prgBanks = 0 then .error .noPrg
  else match Mapper.ofId h.mapperId h.mirroring with
    | none => .error (.unsupportedMapper h.mapperId)
    | some mapper => if image.length < h.imageSize then .error .truncated else .ok (h.build image mapper)

/-- The machine built around a loaded cartridge, before its first `Reset` (R530); `ramInit` is `RAM_INIT` (R26). -/
def construct (params : Params) (ramInit : List Byte) (l : Loaded) : State :=
  let s := State.powerOn params l.cart l.chr l.mapper
  { s with mem := { s.mem with ram := Memory.ofBytes 0 (ramInit.take 2048) } }

end Sys2Proof.Machine
end

