-- ==== Sys2Proof/Machine/Peek.lean ====
section
/-! DEFINITION. `Peek` (20_memory.md R74, 50_bus.md R276, 92_eei_decisions.md D35): a read without tick, stall or side
effect, for the host only. -/

namespace Sys2Proof.Machine

/-- PPUDATA as a read would return it: the buffer, or the palette byte under the open-bus bits (R74, R310). -/
def peekPpuData (e : Env) (d : Devices) : Byte :=
  let a := d.ppu.scroll.addr
  if a.toNat < 0x3F00 then d.ppu.readBuffer
  else (paletteRead e d.ppu a &&& 0x3F#8) ||| (d.ppu.openBus.latch &&& 0xC0#8)

/-- PPU registers: status at normal age, OAMDATA, PPUDATA; write-only registers 0 (D35). -/
def peekPpu (e : Env) (i : Nat) (d : Devices) : Byte :=
  match i with
  | 2 => statusByte d.ppu d.ppu.vblank
  | 4 => e.mem.oam.read d.ppu.oamAddr.toNat
  | 7 => peekPpuData e d
  | _ => 0#8

/-- I/O registers: status without acknowledge, the joypads' next bit; others 0 (D35). -/
def peekIo (r : Nat) (d : Devices) : Byte :=
  match r with
  | 0x15 => d.apu.status
  | 0x16 => (d.dataLatch &&& 0xE0#8) ||| d.joy1.nextBit
  | 0x17 => (d.dataLatch &&& 0xE0#8) ||| d.joy2.nextBit
  | _ => 0#8

/-- `Peek(a)`. -/
def State.peek (s : State) (a : Word) : Byte :=
  match busTarget a with
  | .ram i => s.mem.ram.read i
  | .ppu i => peekPpu s.env i s.dev
  | .io r => peekIo r s.dev
  | .cart => s.dev.mapper.cpuPeek s.env a

end Sys2Proof.Machine
end

