-- ==== Sys2Proof/Machine/Reset.lean ====
section
/-! DEFINITION. What the host does to the machine besides `Step` (00_scope.md R17): `Reset` (70_reset_and_hazards.md
R531 to R533), the first start of a loaded image, the buttons, and the trace line (60_exceptions.md R511). -/

namespace Sys2Proof.Machine

/-- PPU registers and raster state at their construction values; `ppu.clock`, the evaluation state of R28 and the
memories stay (51_ppu.md R351). The frame buffer is one of R29's rows and clears (log entry 23). The model's own
`spr.fetchLo`, which no row gives, clears with the pipeline: the model's choice (log entry 11). -/
def Ppu.warmReset (p : Ppu) : Ppu :=
  { Ppu.powerOn with
    raster := { Ppu.powerOn.raster with clock := p.raster.clock }
    spr := { Ppu.powerOn.spr with secOam := p.spr.secOam, secCount := p.spr.secCount, secHasZero := p.spr.secHasZero } }

/-- The device resets of a warm `Reset` (R533). -/
def Devices.warmReset (d : Devices) : Devices := { d with ppu := d.ppu.warmReset, apu := d.apu.warmReset }

/-- The CPU latches `Reset` clears first (R531). -/
def State.clearLatches (s : State) : State :=
  { s with
    cpu := { s.cpu with jammed := false, irqLatch := false }
    dev := { s.dev with nmiRequest := false, stall := 0 } }

/-- One of the three stack reads of `Reset` (R531): `Read(0x0100 | S); S <- u8(S - 1)`. -/
def State.resetPush (s : State) : State := (s.dummyRead (stackAddr s.cpu.s)).setS (s.cpu.s - 1#8)

/-- The seven cycles of `Reset` (R531). -/
def State.resetCycles (s : State) : State :=
  s.dummyFetch.dummyFetch.resetPush.resetPush.resetPush.maskIrq.loadVector resetVector

/-- The first `Reset`, of a machine just constructed (R530, R531). -/
def State.coldReset (s : State) : State := s.clearLatches.resetCycles

/-- A later `Reset` (R531, R533). -/
def State.warmReset (s : State) : State :=
  let s1 := s.clearLatches
  { s1 with dev := s1.dev.warmReset }.resetCycles

/-- Load an image, build the machine, reset it (R530). -/
def boot (params : Params) (ramInit image : List Byte) : Except LoadError State :=
  match loadImage image with
  | .error err => .error err
  | .ok l => .ok (construct params ramInit l).coldReset

/-- The host sets the buttons of both joypads between steps (54_joypad.md R481). -/
def State.setButtons (b1 b2 : Byte) (s : State) : State :=
  { s with dev := { s.dev with joy1 := { s.dev.joy1 with buttons := b1 }, joy2 := { s.dev.joy2 with buttons := b2 } } }

/-- What the trace prints before a step (R511). -/
structure TraceLine where
  pc : Word
  bytes : List Byte
  instr : Instr
  a : Byte
  x : Byte
  y : Byte
  p : Byte
  s : Byte
  dot : Nat
  scanline : Int
  cycles : Nat
  deriving DecidableEq, Repr

/-- The trace line of a state; its bytes are read with `Peek` (R511). -/
def State.traceLine (s : State) : TraceLine where
  pc := s.cpu.pc
  bytes := (List.range (1 + (decodeOpcode (s.peek s.cpu.pc)).operandBytes)).map
    fun k => s.peek (s.cpu.pc + BitVec.ofNat 16 k)
  instr := decodeOpcode (s.peek s.cpu.pc)
  a := s.cpu.a
  x := s.cpu.x
  y := s.cpu.y
  p := s.cpu.p
  s := s.cpu.s
  dot := s.dev.ppu.raster.dot
  scanline := s.dev.ppu.raster.scanline
  cycles := s.dev.cycles

end Sys2Proof.Machine
end

