-- ==== Sys2Proof/Safety.lean ====
section
/-! DEFINITION. The terms claims are made in: what a state keeps, what a flag result is, how long a piece of a run takes,
and the invariants every step keeps. The machine has no fault (60_exceptions.md R492), so a run is safe when its states
are those the spec describes. -/

namespace Sys2Proof.Machine

/-! ### Memory frames -/

/-- The byte at a location of the machine's memories. -/
def State.byteAt (s : State) (l : Location) : Byte := s.mem.byteAt l

/-- A byte of internal RAM. -/
def State.ramByte (s : State) (i : Nat) : Byte := s.byteAt ⟨.ram, i⟩

/-- The byte at the stack pointer value `sp` (R160). -/
def State.stackByte (s : State) (sp : Byte) : Byte := s.ramByte (0x100 + sp.toNat)

/-- Nothing that only a store or a load of an image can change has changed: every byte of every memory reads as before,
and so do the image and the parameters (R37). -/
def KeepsMemory (s t : State) : Prop := (∀ l, t.byteAt l = s.byteAt l) ∧ t.cart = s.cart ∧ t.params = s.params

/-- The locations a CPU write to `a` may store to: `s` is the state the write cycle starts in. OAM DMA stores to OAM. -/
def State.WritesTo (s : State) (a : Word) (l : Location) : Prop :=
  if a = 0x4014#16 then l.kind = .oam else busStoreLoc s.tick.env a s.tick.dev = some l

/-- From `s` to `t`, in which one CPU write to `a` happened starting in state `w`: every other byte reads as before. -/
def KeepsAllBut (w : State) (a : Word) (s t : State) : Prop :=
  (∀ l, ¬w.WritesTo a l → t.byteAt l = s.byteAt l) ∧ t.cart = s.cart ∧ t.params = s.params

/-- Only the byte of page 1 at the stack pointer values listed may have changed. -/
def KeepsAllButStack (sps : List Byte) (s t : State) : Prop :=
  (∀ l, (∀ sp ∈ sps, l ≠ ⟨.ram, 0x100 + sp.toNat⟩) → t.byteAt l = s.byteAt l) ∧ t.cart = s.cart ∧ t.params = s.params

/-! ### Flags -/

/-- Every flag not listed is unchanged from `p` to `q`. -/
def FlagsKept (changed : List Nat) (p q : Byte) : Prop := ∀ k, k < 8 → k ∉ changed → bitOf q k = bitOf p k

/-- `q` is `p` with N and Z set from `v` (R24). -/
def SetsNZ (v p q : Byte) : Prop := bitOf q flagN = bitOf v 7 ∧ bitOf q flagZ = (v == 0#8) ∧ FlagsKept [flagN, flagZ] p q

/-- `q` is `p` with N and Z set from `v` and C set to `c`. -/
def SetsNZC (v : Byte) (c : Bool) (p q : Byte) : Prop :=
  bitOf q flagN = bitOf v 7 ∧ bitOf q flagZ = (v == 0#8) ∧ bitOf q flagC = c ∧ FlagsKept [flagN, flagZ, flagC] p q

/-- Binary addition with carry as arithmetic on integers (R180): `r` and `q` are the result and the status. -/
def AddsWithCarry (a m p r q : Byte) : Prop :=
  r.toNat + 256 * (bitOf q flagC).toNat = a.toNat + m.toNat + (bitOf p flagC).toNat ∧
    bitOf q flagV =
      !decide (-128 ≤ a.toInt + m.toInt + (bitOf p flagC).toNat ∧ a.toInt + m.toInt + (bitOf p flagC).toNat ≤ 127) ∧
    bitOf q flagN = bitOf r 7 ∧ bitOf q flagZ = (r == 0#8) ∧ FlagsKept [flagN, flagV, flagZ, flagC] p q

/-- Subtraction with borrow (R181): C set means no borrow. -/
def SubtractsWithBorrow (a m p r q : Byte) : Prop :=
  (r.toNat : Int) - 256 * (1 - (bitOf q flagC).toNat) = a.toNat - m.toNat - (1 - (bitOf p flagC).toNat) ∧
    bitOf q flagV =
      !decide (-128 ≤ a.toInt - m.toInt - (1 - (bitOf p flagC).toNat) ∧
        a.toInt - m.toInt - (1 - (bitOf p flagC).toNat) ≤ 127) ∧
    bitOf q flagN = bitOf r 7 ∧ bitOf q flagZ = (r == 0#8) ∧ FlagsKept [flagN, flagV, flagZ, flagC] p q

/-- The status after comparing `r` with `m` (R182). -/
def Compares (r m p q : Byte) : Prop :=
  bitOf q flagC = decide (m.toNat ≤ r.toNat) ∧ bitOf q flagZ = (r == m) ∧ bitOf q flagN = bitOf (r - m) 7 ∧
    FlagsKept [flagN, flagZ, flagC] p q

/-! ### The four shifts and rotates as bit vectors (R191 to R194): nine bits, C above or below -/

/-- A shift or rotate: the byte written and the carry out, from the byte and the carry in. -/
structure ShiftSpec where
  value : Byte
  carry : Bool

/-- R191. -/
def aslSpec (v : Byte) : ShiftSpec := ⟨BitVec.ofNat 8 (2 * v.toNat), decide (128 ≤ v.toNat)⟩

/-- R192. -/
def lsrSpec (v : Byte) : ShiftSpec := ⟨BitVec.ofNat 8 (v.toNat / 2), decide (v.toNat % 2 = 1)⟩

/-- R193. -/
def rolSpec (v : Byte) (c : Bool) : ShiftSpec := ⟨BitVec.ofNat 8 (2 * v.toNat + c.toNat), decide (128 ≤ v.toNat)⟩

/-- R194. -/
def rorSpec (v : Byte) (c : Bool) : ShiftSpec :=
  ⟨BitVec.ofNat 8 (v.toNat / 2 + 128 * c.toNat), decide (v.toNat % 2 = 1)⟩

/-! ### Encodings and cycles -/

/-- Each opcode byte of the list decodes to the instruction beside it. -/
abbrev Encodes (l : List (Byte × Instr)) : Prop := ∀ x ∈ l, decodeOpcode x.1 = x.2

/-- No DMC stall is pending and the DMC has no byte left to fetch: no stall cycle can come up. -/
def State.DmcIdle (s : State) : Prop := s.dev.stall = 0 ∧ s.dev.apu.dmc.bytesLeft = 0#12

/-- With the DMC idle, getting from `s` to `t` takes `n` CPU cycles (R14). -/
def Takes (n : Nat) (s t : State) : Prop := s.DmcIdle → t.dev.cycles = s.dev.cycles + n

/-- One more cycle when the indexed address crosses a page (R134). -/
def State.crossPenalty (m : AddrMode) (s : State) : Nat :=
  if pageCrossed (s.indexBase m).1 (s.cpu.indexOf m) then 1 else 0

/-- The cycles of the read class after C1 (R120, R556). -/
def State.readCycles (m : AddrMode) (s : State) : Nat :=
  match m with
  | .zeropage => 2
  | .zeropageX | .zeropageY | .absolute => 3
  | .indexedIndirect => 5
  | .absoluteX | .absoluteY => 3 + s.crossPenalty m
  | .indirectIndexed => 4 + s.crossPenalty m

/-- The cycles of a read-class operand after C1. -/
def State.operandCycles (m : ReadMode) (s : State) : Nat :=
  match m with
  | .immediate => 1
  | .mem m => s.readCycles m

/-- The cycles of the write class after C1 (R120, R556). -/
def writeCycles : AddrMode → Nat
  | .zeropage => 2
  | .zeropageX | .zeropageY | .absolute => 3
  | .absoluteX | .absoluteY => 4
  | .indexedIndirect | .indirectIndexed => 5

/-! ### Addresses whose reads are memory reads -/

/-- Internal RAM, and cartridge space from 0x6000 on: a read has no side effect there and no tick changes what it
returns (R72). -/
def Stable (a : Word) : Prop := a.toNat < 0x2000 ∨ 0x6000 ≤ a.toNat

/-- The little-endian word at `a` and `b` as `Peek` shows it (R67). -/
def State.peekWord (s : State) (l h : Word) : Word := cat (s.peek h) (s.peek l)

/-! ### Invariants -/

/-- U is stored 1 and B is stored 0 (10_state.md R23). -/
def State.StatusOk (s : State) : Prop := s.cpu.p &&& 0x30#8 = 0x20#8

/-- Every memory is in canonical form (equal memories are equal data). -/
def State.MemoryOk (s : State) : Prop := s.mem.wf = true ∧ s.dev.ppu.frameBuffer.wf = true

/-- The raster position is one of the 341 x 262, at most eight sprites are selected, and the PPU has made three dots for
every CPU cycle (10_state.md R28, R29). -/
def State.RasterOk (s : State) : Prop :=
  (-1 ≤ s.dev.ppu.raster.scanline ∧ s.dev.ppu.raster.scanline ≤ 260) ∧ s.dev.ppu.raster.dot ≤ 340 ∧
    s.dev.ppu.spr.secCount ≤ 8 ∧ s.dev.ppu.spr.count ≤ 8 ∧ s.dev.ppu.raster.clock = 3 * s.dev.cycles

/-- The noise register is never 0, and a disabled channel's length counter is 0 (52_apu.md R368, R379, R392). -/
def State.ApuOk (s : State) : Prop :=
  s.dev.apu.noise.lfsr ≠ 0#15 ∧
    (s.dev.apu.pulse1.enabled = false → s.dev.apu.pulse1.length = 0#8) ∧
    (s.dev.apu.pulse2.enabled = false → s.dev.apu.pulse2.length = 0#8) ∧
    (s.dev.apu.tri.enabled = false → s.dev.apu.tri.length = 0#8) ∧
    (s.dev.apu.noise.enabled = false → s.dev.apu.noise.length = 0#8)

end Sys2Proof.Machine
end

