-- ==== Sys2Proof/Certificates/Slice0/Obligations.lean ====
section
/-! DEFINITION. The statements for the provers. In a statement about `exec i s`, the state `s` is the one the opcode fetch
C1 leaves (30_encoding.md R101, 60_exceptions.md R490): PC is already past the opcode byte, and cycles are counted from
C2 on. The statement StepRunsDecodedInstruction carries them to a step. -/

open Sys2Proof Sys2Proof.Machine

/-! ### Encoding -/

/-- Words written out from the encodings of files 40 to 46 decode to the instructions they stand for. -/
def Obligations.TableWordsDecode : Prop :=
  decodeTableWord 16 0x80A9 = some (.lda .immediate) ∧ decodeTableWord 24 0x12F0BD = some (.lda (.mem .absoluteX)) ∧
    decodeTableWord 16 0x8000 = some .brk ∧ decodeTableWord 16 0x1006 = some (.asl (.mem .zeropage)) ∧
    decodeTableWord 8 0x48 = some .pha ∧ decodeTableWord 24 0x9000_4C = some (.jmp .absolute) ∧
    decodeTableWord 24 0x02FF_6C = some (.jmp .indirect) ∧ decodeTableWord 16 0x03D0 = some .bne ∧
    decodeTableWord 8 0x78 = some .sei ∧ decodeTableWord 24 0x0200_9B = some .shs ∧
    decodeTableWord 16 0x8093 = some (.sha .indirectIndexed) ∧ decodeTableWord 8 0x92 = some (.jam 0x92#8)

/-- Decoding what was encoded gives the instruction, its operand and the rest back, for every well-formed instruction
and every operand its format admits (R100, R101, R103). -/
def Obligations.DecodeEncodeRoundTrip : Prop :=
  ∀ (i : Instr) (o : Operand) (rest : List Byte), i.wf = true → o.fits i = true →
    decode (encode i o ++ rest) = .ok ⟨i, o, rest⟩ ∧ (encode i o).length = 1 + i.operandBytes

/-- Every decoded stream is the encoding of what it decodes to, and no opcode byte is undefined: three bytes always
decode (R100, R109). -/
def Obligations.EncodeDecodeRoundTrip : Prop :=
  (∀ (bytes : List Byte) (d : Decoded), decode bytes = .ok d →
      d.instr.wf = true ∧ d.operand.fits d.instr = true ∧ bytes = encode d.instr d.operand ++ d.rest) ∧
    ∀ (op b1 b2 : Byte) (rest : List Byte), ∃ d, decode (op :: b1 :: b2 :: rest) = .ok d

/-! ### The step -/

/-- When nothing is pending, a step fetches one byte and runs the instruction the decoder reads from any stream that
begins with it; then the IRQ latch is assigned (R490). -/
def Obligations.StepRunsDecodedInstruction : Prop :=
  ∀ (s : State) (rest : List Byte) (d : Decoded),
    s.cpu.jammed = false → s.dev.nmiRequest = false → s.cpu.irqLatch = false →
    decode ((s.beginStep.fetch).1 :: rest) = .ok d →
    (∀ t, exec d.instr (s.beginStep.fetch).2 = .next t →
        step s = .next { t with cpu := { t.cpu with irqLatch := t.latchIrq } }) ∧
      (s.beginStep.fetch).2.cpu = { s.cpu with pc := s.cpu.pc + 1#16 } ∧ KeepsMemory s (s.beginStep.fetch).2

/-- No state stops the machine: every step gives a next state, time advances, and neither the parameters nor the
cartridge image, CHR-ROM included, change (R37, R318, R490, R492). -/
def Obligations.EveryStepAdvances : Prop :=
  ∀ s : State, ∃ t, step s = .next t ∧ s.dev.cycles < t.dev.cycles ∧ t.params = s.params ∧ t.cart = s.cart ∧
    (s.cart.chrIsRam = false → t.mem.chr = s.mem.chr)

/-- The priority of the events at a step boundary: jammed, then NMI, then IRQ (R490, R497). An NMI or IRQ step is the
interrupt entry, with the IRQ latch assigned at its end, so what InterruptEntry says holds of it; an NMI step has cleared
the request and the latch first. PC comes from the NMI vector for NMI and for an IRQ hijacked by its third push, and else
from the IRQ vector; S has gone down by three, I is set. -/
def Obligations.StepEventPriority : Prop :=
  ∀ s : State, ∃ t, step s = .next t ∧
    (s.cpu.jammed = true → t.cpu = { s.cpu with irqLatch := false } ∧ KeepsMemory s t) ∧
    (s.cpu.jammed = false → s.dev.nmiRequest = true →
      let u := { s.beginStep with
        cpu := { s.cpu with irqLatch := false }
        dev := { s.dev with nmiRequest := false } }.interruptEntry .nmi
      t = { u with cpu := { u.cpu with irqLatch := u.latchIrq } } ∧
        t.cpu.pc = s.peekWord 0xFFFA#16 0xFFFB#16 ∧ t.cpu.s = s.cpu.s - 3#8 ∧ bitOf t.cpu.p flagI = true) ∧
    (s.cpu.jammed = false → s.dev.nmiRequest = false → s.cpu.irqLatch = true →
      let u := s.beginStep.interruptEntry .irq
      let status := (s.cpu.p ||| 0x20#8) &&& 0xEF#8
      let hijacked := (s.beginStep.dummyFetch.dummyFetch.pushPc.push status).dev.nmiRequest
      t = { u with cpu := { u.cpu with irqLatch := u.latchIrq } } ∧
        t.cpu.pc = (if hijacked then s.peekWord 0xFFFA#16 0xFFFB#16 else s.peekWord 0xFFFE#16 0xFFFF#16) ∧
        t.cpu.s = s.cpu.s - 3#8 ∧ bitOf t.cpu.p flagI = true)

/-- The IRQ latch after a step of a CPU that is not jammed, in the default poll model: the line is asserted and I is
clear, as they stand at the step's end (R494). -/
def Obligations.IrqLatchAtEndOfStep : Prop :=
  ∀ s t : State, s.params.irqPollModel = .endOfStep → s.cpu.jammed = false → step s = .next t →
    t.cpu.irqLatch = ((t.dev.mapper.irqActive || t.dev.apu.irqActive) && !bitOf t.cpu.p flagI)

/-! ### The bus -/

/-- A read cycle changes no CPU register and no memory (R72, R80). In RAM and in cartridge space from 0x6000 on it returns
what `Peek` shows before it, and changes nothing that `Peek` shows there. -/
def Obligations.ReadCycle : Prop :=
  ∀ (a : Word) (s : State),
    (s.read a).2.cpu = s.cpu ∧ KeepsMemory s (s.read a).2 ∧
      (Stable a → (s.read a).1 = s.peek a) ∧ ∀ b, Stable b → (s.read a).2.peek b = s.peek b

/-- A CPU write changes no CPU register, and no memory but at the location the bus decode names; that location keeps the
written byte (R62, R80, R271, R275). -/
def Obligations.WriteCycle : Prop :=
  ∀ (a : Word) (v : Byte) (s : State),
    (s.write a v).cpu = s.cpu ∧ KeepsAllBut s a s (s.write a v) ∧
      (s.MemoryOk → a ≠ 0x4014#16 → ∀ l, s.WritesTo a l → (s.write a v).byteAt l = l.kept v)

/-- Internal RAM is mirrored every 2 KB: a write to one address is read back at each of its mirrors, and at no other RAM
address (R62). -/
def Obligations.RamMirrors : Prop :=
  ∀ (a b : Word) (v : Byte) (s : State), s.MemoryOk → a.toNat < 0x2000 → b.toNat < 0x2000 →
    ((s.write a v).read b).1 =
      if a.toNat % 0x800 = b.toNat % 0x800 then v else (s.read b).1

/-- The effective address of each mode, for code and pointers in RAM or cartridge space (R124 to R132): zero-page indexing
and pointers wrap inside page 0, absolute indexing carries. -/
def Obligations.EffectiveAddresses : Prop :=
  ∀ s : State, Stable s.cpu.pc → Stable (s.cpu.pc + 1#16) →
    let z := s.peek s.cpu.pc
    let base := s.peekWord s.cpu.pc (s.cpu.pc + 1#16)
    (s.effectiveAddr .zeropage).1 = zext z ∧ (s.effectiveAddr .zeropageX).1 = zext (z + s.cpu.x) ∧
      (s.effectiveAddr .zeropageY).1 = zext (z + s.cpu.y) ∧ (s.effectiveAddr .absolute).1 = base ∧
      (s.effectiveAddr .absoluteX).1 = base + zext s.cpu.x ∧ (s.effectiveAddr .absoluteY).1 = base + zext s.cpu.y ∧
      (s.effectiveAddr .indexedIndirect).1 = s.peekWord (zext (z + s.cpu.x)) (zext (z + s.cpu.x + 1#8)) ∧
      (s.effectiveAddr .indirectIndexed).1 = s.peekWord (zext z) (zext (z + 1#8)) + zext s.cpu.y

/-- The operand a read-class instruction gets: the byte at the effective address, whether or not the index crosses a page
(R123 to R132, R135), when it is in RAM or cartridge space. -/
def Obligations.ReadOperand : Prop :=
  ∀ (m : AddrMode) (s : State),
    (Stable (s.effectiveAddr m).1 → (s.loadMem m).1 = s.peek (s.effectiveAddr m).1) ∧
      (Stable s.cpu.pc → (s.load .immediate).1 = s.peek s.cpu.pc)

/-- A page is crossed when the low byte plus the index exceeds 0xFF; then the indexed address is the un-carried one plus
0x100, and otherwise it is the un-carried one (R128, R134). -/
def Obligations.PageCrossing : Prop :=
  ∀ (base : Word) (i : Byte),
    (pageCrossed base i = true ↔ 0xFF < (lo base).toNat + i.toNat) ∧
      indexed base i = (if pageCrossed base i then uncarried base i + 0x100#16 else uncarried base i) ∧
      hi (uncarried base i) = hi base

/-- The stall loop of a read ends with no stall pending, whatever the devices do and wherever the dummy reads go: the
fuel of the model's loop is enough (R274; that a fuel stands for the loop is the model's, log entry 7). -/
def Obligations.StallIsServed : Prop :=
  ∀ (e : Env) (a : Word) (d : Devices), (serveStall e a (stallFuel d) d).stall = 0

/-- A read with `n` stall cycles pending and no DMC byte left to fetch takes `n + 1` cycles and leaves no stall (R274,
R278). -/
def Obligations.StalledReadCycles : Prop :=
  ∀ (a : Word) (s : State), s.dev.apu.dmc.bytesLeft = 0#12 →
    (s.read a).2.dev.cycles = s.dev.cycles + s.dev.stall + 1 ∧ (s.read a).2.dev.stall = 0

/-- The DMC's refill check: with an empty buffer and bytes left it takes one byte through the bus decode, asks for four
stall cycles, and moves on; otherwise it does nothing (R279, R398). -/
def Obligations.DmcFetch : Prop :=
  ∀ (e : Env) (d : Devices),
    let m := d.apu.dmc
    let d' := dmcRefill e d
    (m.bufferFull = true ∨ m.bytesLeft = 0#12 → d' = d) ∧
      (m.bufferFull = false → m.bytesLeft ≠ 0#12 →
        d'.stall = d.stall + 4 ∧ d'.apu.dmc.buffer = (busRead e m.curAddr d).1 ∧ d'.apu.dmc.bufferFull = true ∧
          d'.cycles = d.cycles ∧
          (m.bytesLeft ≠ 1#12 →
            d'.apu.dmc.bytesLeft = m.bytesLeft - 1#12 ∧
              d'.apu.dmc.curAddr = (if m.curAddr = 0xFFFF#16 then 0x8000#16 else m.curAddr + 1#16)) ∧
          (m.bytesLeft = 1#12 → m.loop = true →
            d'.apu.dmc.bytesLeft = (m.lenReg.setWidth 12 <<< 4) ||| 1#12 ∧
              d'.apu.dmc.curAddr = 0xC000#16 ||| (m.addrReg.setWidth 16 <<< 6)) ∧
          (m.bytesLeft = 1#12 → m.loop = false →
            d'.apu.dmc.bytesLeft = 0#12 ∧ (m.irqEn = true → d'.apu.dmcIrq = true)))

/-- A CPU write to 0x4014 runs OAM DMA inside its cycle, after its tick: 513 CPU cycles more, 514 when the write cycle's
number is odd, if no DMC fetch falls into it (R280). -/
def Obligations.OamDmaCycles : Prop :=
  ∀ (v : Byte) (s : State), s.DmcIdle →
    (s.write 0x4014#16 v).dev.cycles = s.dev.cycles + 1 + (if (s.dev.cycles + 1) % 2 = 1 then 514 else 513)

/-- With rendering off, a CPU write of a RAM page's number to 0x4014 copies the page's 256 bytes to OAM from OAMADDR on,
wrapping, attribute bytes without bits 4..2, and changes no other memory and no CPU register (R280, R306). -/
def Obligations.OamDmaCopiesPage : Prop :=
  ∀ (v : Byte) (s : State), s.MemoryOk → v.toNat < 0x20 → s.dev.ppu.rendering = false →
    let t := s.write 0x4014#16 v
    (∀ i, i < 256 →
        let o := (s.dev.ppu.oamAddr.toNat + i) % 256
        t.byteAt ⟨.oam, o⟩ =
          if o % 4 = 2 then s.ramByte ((v.toNat * 256 + i) % 0x800) &&& 0xE3#8
          else s.ramByte ((v.toNat * 256 + i) % 0x800)) ∧
      (∀ l : Location, l.kind ≠ .oam → t.byteAt l = s.byteAt l) ∧ t.cpu = s.cpu

/-! ### Loads, stores, transfers, stack -/

/-- LDA LDX LDY: encodings, result, N and Z, frame, cycles (R151 to R153). -/
def Obligations.Loads : Prop :=
  Encodes [(0xA9#8, .lda .immediate), (0xA5#8, .lda (.mem .zeropage)), (0xB5#8, .lda (.mem .zeropageX)),
      (0xAD#8, .lda (.mem .absolute)), (0xBD#8, .lda (.mem .absoluteX)), (0xB9#8, .lda (.mem .absoluteY)),
      (0xA1#8, .lda (.mem .indexedIndirect)), (0xB1#8, .lda (.mem .indirectIndexed))] ∧
    Encodes [(0xA2#8, .ldx .immediate), (0xA6#8, .ldx (.mem .zeropage)), (0xB6#8, .ldx (.mem .zeropageY)),
      (0xAE#8, .ldx (.mem .absolute)), (0xBE#8, .ldx (.mem .absoluteY)), (0xA0#8, .ldy .immediate),
      (0xA4#8, .ldy (.mem .zeropage)), (0xB4#8, .ldy (.mem .zeropageX)), (0xAC#8, .ldy (.mem .absolute)),
      (0xBC#8, .ldy (.mem .absoluteX))] ∧
    ∀ (m : ReadMode) (s : State),
      let v := (s.load m).1
      let c := s.cpu
      let pc' := c.pc + BitVec.ofNat 16 m.operandBytes
      (∃ t, exec (.lda m) s = .next t ∧ t.cpu = { c with a := v, p := t.cpu.p, pc := pc' } ∧
          SetsNZ v c.p t.cpu.p ∧ KeepsMemory s t ∧ Takes (s.operandCycles m) s t) ∧
        (∃ t, exec (.ldx m) s = .next t ∧ t.cpu = { c with x := v, p := t.cpu.p, pc := pc' } ∧
          SetsNZ v c.p t.cpu.p ∧ KeepsMemory s t ∧ Takes (s.operandCycles m) s t) ∧
        ∃ t, exec (.ldy m) s = .next t ∧ t.cpu = { c with y := v, p := t.cpu.p, pc := pc' } ∧
          SetsNZ v c.p t.cpu.p ∧ KeepsMemory s t ∧ Takes (s.operandCycles m) s t

/-- STA STX STY SAX: encodings, the byte stored, no flag, frame, cycles (R154 to R156, R241). A store to 0x4014 is the
same write cycle with OAM DMA in it: what that copies is OamDmaCopiesPage. -/
def Obligations.Stores : Prop :=
  Encodes [(0x85#8, .sta .zeropage), (0x95#8, .sta .zeropageX), (0x8D#8, .sta .absolute), (0x9D#8, .sta .absoluteX),
      (0x99#8, .sta .absoluteY), (0x81#8, .sta .indexedIndirect), (0x91#8, .sta .indirectIndexed)] ∧
    Encodes [(0x86#8, .stx .zeropage), (0x96#8, .stx .zeropageY), (0x8E#8, .stx .absolute), (0x84#8, .sty .zeropage),
      (0x94#8, .sty .zeropageX), (0x8C#8, .sty .absolute), (0x87#8, .sax .zeropage), (0x97#8, .sax .zeropageY),
      (0x8F#8, .sax .absolute), (0x83#8, .sax .indexedIndirect)] ∧
    ∀ (m : AddrMode) (s : State) (i : Instr) (v : Byte),
      (i, v) ∈ [(Instr.sta m, s.cpu.a), (.stx m, s.cpu.x), (.sty m, s.cpu.y), (.sax m, s.cpu.a &&& s.cpu.x)] →
      let ea := s.effectiveAddr m
      ∃ t, exec i s = .next t ∧ t.cpu = { s.cpu with pc := s.cpu.pc + BitVec.ofNat 16 m.operandBytes } ∧
        KeepsAllBut ea.2 ea.1 s t ∧
        (s.MemoryOk → ea.1 ≠ 0x4014#16 → ∀ l, ea.2.WritesTo ea.1 l → t.byteAt l = l.kept v) ∧
        (ea.1 ≠ 0x4014#16 → Takes (writeCycles m) s t) ∧
        (ea.1 = 0x4014#16 → t = ea.2.write 0x4014#16 v ∧
          Takes (writeCycles m + if (s.dev.cycles + writeCycles m) % 2 = 1 then 514 else 513) s t)

/-- LAX: A and X get the operand; LAS: A, X and S get the operand ANDed with S (R242, R256). -/
def Obligations.UnofficialLoads : Prop :=
  Encodes [(0xA7#8, .lax .zeropage), (0xB7#8, .lax .zeropageY), (0xAF#8, .lax .absolute), (0xBF#8, .lax .absoluteY),
      (0xA3#8, .lax .indexedIndirect), (0xB3#8, .lax .indirectIndexed), (0xBB#8, .las)] ∧
    ∀ (m : AddrMode) (s : State),
      let v := (s.loadMem m).1
      let w := (s.loadMem .absoluteY).1 &&& s.cpu.s
      (∃ t, exec (.lax m) s = .next t ∧
        t.cpu = { s.cpu with a := v, x := v, p := t.cpu.p, pc := s.cpu.pc + BitVec.ofNat 16 m.operandBytes } ∧
        SetsNZ v s.cpu.p t.cpu.p ∧ KeepsMemory s t ∧ Takes (s.readCycles m) s t) ∧
      ∃ t, exec .las s = .next t ∧
        t.cpu = { s.cpu with a := w, x := w, s := w, p := t.cpu.p, pc := s.cpu.pc + 2#16 } ∧
        SetsNZ w s.cpu.p t.cpu.p ∧ KeepsMemory s t ∧ Takes (s.readCycles .absoluteY) s t

/-- The six transfers (R161 to R166): TXS changes no flag. -/
def Obligations.Transfers : Prop :=
  Encodes [(0xAA#8, .tax), (0xA8#8, .tay), (0x8A#8, .txa), (0x98#8, .tya), (0xBA#8, .tsx), (0x9A#8, .txs)] ∧
    ∀ s : State,
      let c := s.cpu
      (∀ (i : Instr) (v : Byte) (reg : Byte → Cpu),
        (i, v, reg) ∈ [(Instr.tax, c.a, fun b => { c with x := b }), (.tay, c.a, fun b => { c with y := b }),
          (.txa, c.x, fun b => { c with a := b }), (.tya, c.y, fun b => { c with a := b }),
          (.tsx, c.s, fun b => { c with x := b })] →
        ∃ t, exec i s = .next t ∧ t.cpu = { reg v with p := t.cpu.p } ∧ SetsNZ v c.p t.cpu.p ∧ KeepsMemory s t ∧
          Takes 1 s t) ∧
      ∃ t, exec .txs s = .next t ∧ t.cpu = { c with s := c.x } ∧ KeepsMemory s t ∧ Takes 1 s t

/-- PHA and PHP: the byte at the stack pointer, S less one, nothing else (R167, R168). PHP's byte has bits 5 and 4 set. -/
def Obligations.Pushes : Prop :=
  Encodes [(0x48#8, .pha), (0x08#8, .php)] ∧
    ∀ s : State, s.MemoryOk →
      (∃ t, exec .pha s = .next t ∧ t.cpu = { s.cpu with s := s.cpu.s - 1#8 } ∧
          t.stackByte s.cpu.s = s.cpu.a ∧ KeepsAllButStack [s.cpu.s] s t ∧ Takes 2 s t) ∧
        ∃ t, exec .php s = .next t ∧ t.cpu = { s.cpu with s := s.cpu.s - 1#8 } ∧
          t.stackByte s.cpu.s = s.cpu.p ||| 0x30#8 ∧ KeepsAllButStack [s.cpu.s] s t ∧ Takes 2 s t

/-- PLA and PLP: the byte above the stack pointer, S plus one (R169, R170). PLP ignores bits 5 and 4 of it. -/
def Obligations.Pulls : Prop :=
  Encodes [(0x68#8, .pla), (0x28#8, .plp)] ∧
    ∀ s : State,
      let b := s.stackByte (s.cpu.s + 1#8)
      (∃ t, exec .pla s = .next t ∧ t.cpu = { s.cpu with a := b, s := s.cpu.s + 1#8, p := t.cpu.p } ∧
          SetsNZ b s.cpu.p t.cpu.p ∧ KeepsMemory s t ∧ Takes 3 s t) ∧
        ∃ t, exec .plp s = .next t ∧
          t.cpu = { s.cpu with s := s.cpu.s + 1#8, p := (b &&& 0xCF#8) ||| 0x20#8 } ∧ KeepsMemory s t ∧ Takes 3 s t

/-! ### Logic, arithmetic, compares -/

/-- ORA AND EOR (R177 to R179). -/
def Obligations.Logic : Prop :=
  Encodes [(0x09#8, .ora .immediate), (0x05#8, .ora (.mem .zeropage)), (0x15#8, .ora (.mem .zeropageX)),
      (0x0D#8, .ora (.mem .absolute)), (0x1D#8, .ora (.mem .absoluteX)), (0x19#8, .ora (.mem .absoluteY)),
      (0x01#8, .ora (.mem .indexedIndirect)), (0x11#8, .ora (.mem .indirectIndexed))] ∧
    Encodes [(0x29#8, .and .immediate), (0x25#8, .and (.mem .zeropage)), (0x35#8, .and (.mem .zeropageX)),
      (0x2D#8, .and (.mem .absolute)), (0x3D#8, .and (.mem .absoluteX)), (0x39#8, .and (.mem .absoluteY)),
      (0x21#8, .and (.mem .indexedIndirect)), (0x31#8, .and (.mem .indirectIndexed))] ∧
    Encodes [(0x49#8, .eor .immediate), (0x45#8, .eor (.mem .zeropage)), (0x55#8, .eor (.mem .zeropageX)),
      (0x4D#8, .eor (.mem .absolute)), (0x5D#8, .eor (.mem .absoluteX)), (0x59#8, .eor (.mem .absoluteY)),
      (0x41#8, .eor (.mem .indexedIndirect)), (0x51#8, .eor (.mem .indirectIndexed))] ∧
    ∀ (m : ReadMode) (s : State) (i : Instr) (r : Byte),
      (i, r) ∈ [(Instr.ora m, s.cpu.a ||| (s.load m).1), (.and m, s.cpu.a &&& (s.load m).1),
        (.eor m, s.cpu.a ^^^ (s.load m).1)] →
      ∃ t, exec i s = .next t ∧
        t.cpu = { s.cpu with a := r, p := t.cpu.p, pc := s.cpu.pc + BitVec.ofNat 16 m.operandBytes } ∧
        SetsNZ r s.cpu.p t.cpu.p ∧ KeepsMemory s t ∧ Takes (s.operandCycles m) s t

/-- ADC, SBC and the unofficial SBC as integer arithmetic: C is the carry out of eight bits, V the signed overflow, and D
plays no part (R180, R181, R186, R251). -/
def Obligations.AddSubtract : Prop :=
  Encodes [(0x69#8, .adc .immediate), (0x65#8, .adc (.mem .zeropage)), (0x75#8, .adc (.mem .zeropageX)),
      (0x6D#8, .adc (.mem .absolute)), (0x7D#8, .adc (.mem .absoluteX)), (0x79#8, .adc (.mem .absoluteY)),
      (0x61#8, .adc (.mem .indexedIndirect)), (0x71#8, .adc (.mem .indirectIndexed))] ∧
    Encodes [(0xE9#8, .sbc .immediate), (0xE5#8, .sbc (.mem .zeropage)), (0xF5#8, .sbc (.mem .zeropageX)),
      (0xED#8, .sbc (.mem .absolute)), (0xFD#8, .sbc (.mem .absoluteX)), (0xF9#8, .sbc (.mem .absoluteY)),
      (0xE1#8, .sbc (.mem .indexedIndirect)), (0xF1#8, .sbc (.mem .indirectIndexed)), (0xEB#8, .sbcUnofficial)] ∧
    ∀ (m : ReadMode) (s : State),
      let v := (s.load m).1
      let c := s.cpu
      let pc' := c.pc + BitVec.ofNat 16 m.operandBytes
      (∃ t, exec (.adc m) s = .next t ∧ t.cpu = { c with a := t.cpu.a, p := t.cpu.p, pc := pc' } ∧
          AddsWithCarry c.a v c.p t.cpu.a t.cpu.p ∧ KeepsMemory s t ∧ Takes (s.operandCycles m) s t) ∧
        (∃ t, exec (.sbc m) s = .next t ∧ t.cpu = { c with a := t.cpu.a, p := t.cpu.p, pc := pc' } ∧
          SubtractsWithBorrow c.a v c.p t.cpu.a t.cpu.p ∧ KeepsMemory s t ∧ Takes (s.operandCycles m) s t) ∧
        ∃ t, exec .sbcUnofficial s = .next t ∧ exec (.sbc .immediate) s = .next t

/-- CMP CPX CPY: C is unsigned not-less; BIT: Z from the AND, N and V from the operand; no register changes (R182 to
R185). -/
def Obligations.ComparesAndBitTest : Prop :=
  Encodes [(0xC9#8, .cmp .immediate), (0xC5#8, .cmp (.mem .zeropage)), (0xD5#8, .cmp (.mem .zeropageX)),
      (0xCD#8, .cmp (.mem .absolute)), (0xDD#8, .cmp (.mem .absoluteX)), (0xD9#8, .cmp (.mem .absoluteY)),
      (0xC1#8, .cmp (.mem .indexedIndirect)), (0xD1#8, .cmp (.mem .indirectIndexed))] ∧
    Encodes [(0xE0#8, .cpx .immediate), (0xE4#8, .cpx (.mem .zeropage)), (0xEC#8, .cpx (.mem .absolute)),
      (0xC0#8, .cpy .immediate), (0xC4#8, .cpy (.mem .zeropage)), (0xCC#8, .cpy (.mem .absolute)),
      (0x24#8, .bit .zeropage), (0x2C#8, .bit .absolute)] ∧
    (∀ (m : AddrMode) (s : State),
      let v := (s.loadMem m).1
      ∃ t, exec (.bit m) s = .next t ∧
        t.cpu = { s.cpu with p := t.cpu.p, pc := s.cpu.pc + BitVec.ofNat 16 m.operandBytes } ∧
        bitOf t.cpu.p flagZ = (s.cpu.a &&& v == 0#8) ∧ bitOf t.cpu.p flagN = bitOf v 7 ∧
        bitOf t.cpu.p flagV = bitOf v 6 ∧ FlagsKept [flagN, flagV, flagZ] s.cpu.p t.cpu.p ∧ KeepsMemory s t ∧
        Takes (s.readCycles m) s t) ∧
    ∀ (m : ReadMode) (s : State) (i : Instr) (r : Byte),
      (i, r) ∈ [(Instr.cmp m, s.cpu.a), (.cpx m, s.cpu.x), (.cpy m, s.cpu.y)] →
      ∃ t, exec i s = .next t ∧ t.cpu = { s.cpu with p := t.cpu.p, pc := s.cpu.pc + BitVec.ofNat 16 m.operandBytes } ∧
        Machine.Compares r (s.load m).1 s.cpu.p t.cpu.p ∧ KeepsMemory s t ∧ Takes (s.operandCycles m) s t

/-! ### Read-modify-write -/

/-- ASL LSR ROL ROR on A: one bit position, through C (R191 to R194). -/
def Obligations.AccumulatorShifts : Prop :=
  Encodes [(0x0A#8, .asl .accumulator), (0x4A#8, .lsr .accumulator), (0x2A#8, .rol .accumulator),
      (0x6A#8, .ror .accumulator)] ∧
    ∀ (s : State) (i : Instr) (r : ShiftSpec),
      (i, r) ∈ [(Instr.asl .accumulator, aslSpec s.cpu.a), (.lsr .accumulator, lsrSpec s.cpu.a),
        (.rol .accumulator, rolSpec s.cpu.a (bitOf s.cpu.p flagC)),
        (.ror .accumulator, rorSpec s.cpu.a (bitOf s.cpu.p flagC))] →
      ∃ t, exec i s = .next t ∧ t.cpu = { s.cpu with a := r.value, p := t.cpu.p } ∧
        SetsNZC r.value r.carry s.cpu.p t.cpu.p ∧ KeepsMemory s t ∧ Takes 1 s t

/-- What every read-modify-write form does around its operation (R135, R190): the old value is read and written back, the
new value is written, at one effective address; PC moves past the operand; every other byte reads as before. -/
def Obligations.ReadModifyWriteFrame : Prop :=
  ∀ (m : AddrMode) (s : State) (i : Instr),
    i ∈ [Instr.asl (.mem m), .lsr (.mem m), .rol (.mem m), .ror (.mem m), .inc m, .dec m, .slo m, .rla m, .sre m, .rra m,
      .dcp m, .isc m] →
    let ea := s.effectiveAddr m
    let afterRead := (ea.2.read ea.1).2
    let afterDummy := afterRead.write ea.1 (ea.2.read ea.1).1
    ∃ t, exec i s = .next t ∧
      t.cpu = { s.cpu with a := t.cpu.a, p := t.cpu.p, pc := s.cpu.pc + BitVec.ofNat 16 m.operandBytes } ∧
      (∀ l, ¬afterRead.WritesTo ea.1 l → ¬afterDummy.WritesTo ea.1 l → t.byteAt l = s.byteAt l) ∧
      t.cart = s.cart ∧ t.params = s.params ∧ (ea.1 ≠ 0x4014#16 → Takes (writeCycles m + 2) s t)

/-- ASL LSR ROL ROR on memory: result at the effective address, flags (R191 to R194). -/
def Obligations.MemoryShifts : Prop :=
  Encodes [(0x06#8, .asl (.mem .zeropage)), (0x16#8, .asl (.mem .zeropageX)), (0x0E#8, .asl (.mem .absolute)),
      (0x1E#8, .asl (.mem .absoluteX)), (0x46#8, .lsr (.mem .zeropage)), (0x56#8, .lsr (.mem .zeropageX)),
      (0x4E#8, .lsr (.mem .absolute)), (0x5E#8, .lsr (.mem .absoluteX))] ∧
    Encodes [(0x26#8, .rol (.mem .zeropage)), (0x36#8, .rol (.mem .zeropageX)), (0x2E#8, .rol (.mem .absolute)),
      (0x3E#8, .rol (.mem .absoluteX)), (0x66#8, .ror (.mem .zeropage)), (0x76#8, .ror (.mem .zeropageX)),
      (0x6E#8, .ror (.mem .absolute)), (0x7E#8, .ror (.mem .absoluteX))] ∧
    ∀ (m : AddrMode) (s : State) (i : Instr) (r : ShiftSpec),
      let ea := s.effectiveAddr m
      let v := (ea.2.read ea.1).1
      let w := (ea.2.read ea.1).2.write ea.1 v
      (i, r) ∈ [(Instr.asl (.mem m), aslSpec v), (.lsr (.mem m), lsrSpec v),
        (.rol (.mem m), rolSpec v (bitOf s.cpu.p flagC)), (.ror (.mem m), rorSpec v (bitOf s.cpu.p flagC))] →
      ∃ t, exec i s = .next t ∧ t.cpu.a = s.cpu.a ∧ SetsNZC r.value r.carry s.cpu.p t.cpu.p ∧
        (s.MemoryOk → ea.1 ≠ 0x4014#16 → ∀ l, w.WritesTo ea.1 l → t.byteAt l = l.kept r.value)

/-- INC and DEC: C and V are not touched (R195, R196). -/
def Obligations.IncrementDecrementMemory : Prop :=
  Encodes [(0xE6#8, .inc .zeropage), (0xF6#8, .inc .zeropageX), (0xEE#8, .inc .absolute), (0xFE#8, .inc .absoluteX),
      (0xC6#8, .dec .zeropage), (0xD6#8, .dec .zeropageX), (0xCE#8, .dec .absolute), (0xDE#8, .dec .absoluteX)] ∧
    ∀ (m : AddrMode) (s : State) (i : Instr) (r : Byte),
      let ea := s.effectiveAddr m
      let v := (ea.2.read ea.1).1
      let w := (ea.2.read ea.1).2.write ea.1 v
      (i, r) ∈ [(Instr.inc m, v + 1#8), (.dec m, v - 1#8)] →
      ∃ t, exec i s = .next t ∧ t.cpu.a = s.cpu.a ∧ SetsNZ r s.cpu.p t.cpu.p ∧
        (s.MemoryOk → ea.1 ≠ 0x4014#16 → ∀ l, w.WritesTo ea.1 l → t.byteAt l = l.kept r)

/-- INX INY DEX DEY (R197 to R200). -/
def Obligations.IncrementDecrementRegister : Prop :=
  Encodes [(0xE8#8, .inx), (0xC8#8, .iny), (0xCA#8, .dex), (0x88#8, .dey)] ∧
    ∀ (s : State) (i : Instr) (x y r : Byte),
      (i, x, y, r) ∈ [(Instr.inx, s.cpu.x + 1#8, s.cpu.y, s.cpu.x + 1#8), (.iny, s.cpu.x, s.cpu.y + 1#8, s.cpu.y + 1#8),
        (.dex, s.cpu.x - 1#8, s.cpu.y, s.cpu.x - 1#8), (.dey, s.cpu.x, s.cpu.y - 1#8, s.cpu.y - 1#8)] →
      ∃ t, exec i s = .next t ∧ t.cpu = { s.cpu with x := x, y := y, p := t.cpu.p } ∧ SetsNZ r s.cpu.p t.cpu.p ∧
        KeepsMemory s t ∧ Takes 1 s t

/-- SLO RLA SRE: the shifted byte is stored and combined with A; C from the shift, N and Z from A (R237 to R239). -/
def Obligations.UnofficialShiftAndLogic : Prop :=
  Encodes [(0x07#8, .slo .zeropage), (0x17#8, .slo .zeropageX), (0x0F#8, .slo .absolute), (0x1F#8, .slo .absoluteX),
      (0x1B#8, .slo .absoluteY), (0x03#8, .slo .indexedIndirect), (0x13#8, .slo .indirectIndexed)] ∧
    Encodes [(0x27#8, .rla .zeropage), (0x37#8, .rla .zeropageX), (0x2F#8, .rla .absolute), (0x3F#8, .rla .absoluteX),
      (0x3B#8, .rla .absoluteY), (0x23#8, .rla .indexedIndirect), (0x33#8, .rla .indirectIndexed)] ∧
    Encodes [(0x47#8, .sre .zeropage), (0x57#8, .sre .zeropageX), (0x4F#8, .sre .absolute), (0x5F#8, .sre .absoluteX),
      (0x5B#8, .sre .absoluteY), (0x43#8, .sre .indexedIndirect), (0x53#8, .sre .indirectIndexed)] ∧
    ∀ (m : AddrMode) (s : State) (i : Instr) (r : ShiftSpec) (a : Byte),
      let ea := s.effectiveAddr m
      let v := (ea.2.read ea.1).1
      let w := (ea.2.read ea.1).2.write ea.1 v
      let rot := rolSpec v (bitOf s.cpu.p flagC)
      (i, r, a) ∈ [(Instr.slo m, aslSpec v, s.cpu.a ||| (aslSpec v).value), (.rla m, rot, s.cpu.a &&& rot.value),
        (.sre m, lsrSpec v, s.cpu.a ^^^ (lsrSpec v).value)] →
      ∃ t, exec i s = .next t ∧ t.cpu.a = a ∧ SetsNZC a r.carry s.cpu.p t.cpu.p ∧
        (s.MemoryOk → ea.1 ≠ 0x4014#16 → ∀ l, w.WritesTo ea.1 l → t.byteAt l = l.kept r.value)

/-- RRA DCP ISC: rotate then add with the rotate's carry, decrement then compare, increment then subtract (R240, R243,
R244). -/
def Obligations.UnofficialModifyAndArithmetic : Prop :=
  Encodes [(0x67#8, .rra .zeropage), (0x77#8, .rra .zeropageX), (0x6F#8, .rra .absolute), (0x7F#8, .rra .absoluteX),
      (0x7B#8, .rra .absoluteY), (0x63#8, .rra .indexedIndirect), (0x73#8, .rra .indirectIndexed)] ∧
    Encodes [(0xC7#8, .dcp .zeropage), (0xD7#8, .dcp .zeropageX), (0xCF#8, .dcp .absolute), (0xDF#8, .dcp .absoluteX),
      (0xDB#8, .dcp .absoluteY), (0xC3#8, .dcp .indexedIndirect), (0xD3#8, .dcp .indirectIndexed)] ∧
    Encodes [(0xE7#8, .isc .zeropage), (0xF7#8, .isc .zeropageX), (0xEF#8, .isc .absolute), (0xFF#8, .isc .absoluteX),
      (0xFB#8, .isc .absoluteY), (0xE3#8, .isc .indexedIndirect), (0xF3#8, .isc .indirectIndexed)] ∧
    ∀ (m : AddrMode) (s : State),
      let ea := s.effectiveAddr m
      let v := (ea.2.read ea.1).1
      let w := (ea.2.read ea.1).2.write ea.1 v
      let rot := rorSpec v (bitOf s.cpu.p flagC)
      let stored (t : State) (r : Byte) : Prop :=
        s.MemoryOk → ea.1 ≠ 0x4014#16 → ∀ l, w.WritesTo ea.1 l → t.byteAt l = l.kept r
      (∃ t q, exec (.rra m) s = .next t ∧ bitOf q flagC = rot.carry ∧ FlagsKept [flagC, flagN, flagZ] s.cpu.p q ∧
          AddsWithCarry s.cpu.a rot.value q t.cpu.a t.cpu.p ∧ stored t rot.value) ∧
        (∃ t, exec (.dcp m) s = .next t ∧ t.cpu.a = s.cpu.a ∧
          Machine.Compares s.cpu.a (v - 1#8) s.cpu.p t.cpu.p ∧ stored t (v - 1#8)) ∧
        ∃ t, exec (.isc m) s = .next t ∧ SubtractsWithBorrow s.cpu.a (v + 1#8) s.cpu.p t.cpu.a t.cpu.p ∧
          stored t (v + 1#8)

/-! ### Control flow -/

/-- JMP: the operand word, or the word its pointer addresses, whose second byte comes from the pointer's own page (R206,
R207). -/
def Obligations.Jumps : Prop :=
  Encodes [(0x4C#8, .jmp .absolute), (0x6C#8, .jmp .indirect)] ∧
    ∀ s : State,
      (∃ t, exec (.jmp .absolute) s = .next t ∧ t.cpu = { s.cpu with pc := s.fetchWord.1 } ∧ KeepsMemory s t ∧
          Takes 2 s t) ∧
        ∃ t, exec (.jmp .indirect) s = .next t ∧ t.cpu = { s.cpu with pc := t.cpu.pc } ∧ KeepsMemory s t ∧
          Takes 4 s t ∧
          let p := s.fetchWord.1
          let p' := cat (hi p) (lo p + 1#8)
          (Stable p → Stable p' → t.cpu.pc = s.peekWord p p')

/-- JSR pushes the address of its own last byte and jumps; RTS pulls an address and goes one past it (R208, R209). JSR's
high operand byte is read after the pushes. -/
def Obligations.Subroutines : Prop :=
  Encodes [(0x20#8, .jsr), (0x60#8, .rts)] ∧
    ∀ s : State,
      (s.MemoryOk →
        ∃ t, exec .jsr s = .next t ∧ t.cpu = { s.cpu with s := s.cpu.s - 2#8, pc := t.cpu.pc } ∧
          t.stackByte s.cpu.s = hi (s.cpu.pc + 1#16) ∧ t.stackByte (s.cpu.s - 1#8) = lo (s.cpu.pc + 1#16) ∧
          KeepsAllButStack [s.cpu.s, s.cpu.s - 1#8] s t ∧ Takes 5 s t ∧
          (Stable s.cpu.pc → Stable (s.cpu.pc + 1#16) →
            t.cpu.pc = cat (t.peek (s.cpu.pc + 1#16)) (s.peek s.cpu.pc))) ∧
        ∃ t, exec .rts s = .next t ∧
          t.cpu = { s.cpu with
            s := s.cpu.s + 2#8
            pc := cat (s.stackByte (s.cpu.s + 2#8)) (s.stackByte (s.cpu.s + 1#8)) + 1#16 } ∧
          KeepsMemory s t ∧ Takes 5 s t

/-- RTI pulls P, of whose byte bits 5 and 4 are ignored, then PC (R210, R502). -/
def Obligations.ReturnFromInterrupt : Prop :=
  Encodes [(0x40#8, .rti)] ∧
    ∀ s : State, ∃ t, exec .rti s = .next t ∧
      t.cpu = { s.cpu with
        s := s.cpu.s + 3#8
        p := (s.stackByte (s.cpu.s + 1#8) &&& 0xCF#8) ||| 0x20#8
        pc := cat (s.stackByte (s.cpu.s + 3#8)) (s.stackByte (s.cpu.s + 2#8)) } ∧
      KeepsMemory s t ∧ Takes 5 s t

/-- BRK: PC past the padding byte and the status with B and U set are pushed, I is set and nothing else in P, PC comes
from the IRQ vector, or from the NMI vector if an NMI request is up after the third push (R211). -/
def Obligations.Break : Prop :=
  Encodes [(0x00#8, .brk)] ∧
    ∀ s : State, s.MemoryOk →
      let pushed := (s.fetch.2.pushPc.push (s.cpu.p ||| 0x30#8)).dev.nmiRequest
      ∃ t, exec .brk s = .next t ∧
        t.cpu = { s.cpu with s := s.cpu.s - 3#8, p := s.cpu.p ||| 0x04#8, pc := t.cpu.pc } ∧
        t.stackByte s.cpu.s = hi (s.cpu.pc + 1#16) ∧ t.stackByte (s.cpu.s - 1#8) = lo (s.cpu.pc + 1#16) ∧
        t.stackByte (s.cpu.s - 2#8) = s.cpu.p ||| 0x30#8 ∧
        KeepsAllButStack [s.cpu.s, s.cpu.s - 1#8, s.cpu.s - 2#8] s t ∧ Takes 6 s t ∧
        t.cpu.pc = if pushed then s.peekWord 0xFFFA#16 0xFFFB#16 else s.peekWord 0xFFFE#16 0xFFFF#16

/-- What interrupt entry saves and changes (R498, R499): the address of the instruction that did not run and the status
with U set and B clear are pushed; I is set; NMI goes through its own vector; IRQ through 0xFFFE unless an NMI request is
up after the third push. -/
def Obligations.InterruptEntry : Prop :=
  ∀ (k : Interrupt) (s : State), k ≠ .brk → s.MemoryOk →
    let t := s.interruptEntry k
    let status := (s.cpu.p ||| 0x20#8) &&& 0xEF#8
    let pushed := (s.dummyFetch.dummyFetch.pushPc.push status).dev.nmiRequest
    t.cpu = { s.cpu with s := s.cpu.s - 3#8, p := s.cpu.p ||| 0x04#8, pc := t.cpu.pc } ∧
      t.stackByte s.cpu.s = hi s.cpu.pc ∧ t.stackByte (s.cpu.s - 1#8) = lo s.cpu.pc ∧
      t.stackByte (s.cpu.s - 2#8) = status ∧
      KeepsAllButStack [s.cpu.s, s.cpu.s - 1#8, s.cpu.s - 2#8] s t ∧ Takes 7 s t ∧
      t.cpu.pc =
        if k = .nmi ∨ pushed = true then s.peekWord 0xFFFA#16 0xFFFB#16 else s.peekWord 0xFFFE#16 0xFFFF#16

/-- What was left is found again: an RTS after a JSR goes to the instruction after it with S restored, and an RTI after a
BRK or an interrupt entry restores P, S and the resume address (R208 to R211, R223, R499, R502). -/
def Obligations.ReturnsRestore : Prop :=
  ∀ s : State, s.MemoryOk → s.StatusOk →
    (∀ t, exec .jsr s = .next t → ∃ u, exec .rts t = .next u ∧ u.cpu = { s.cpu with pc := s.cpu.pc + 2#16 }) ∧
      (∀ t, exec .brk s = .next t → ∃ u, exec .rti t = .next u ∧ u.cpu = { s.cpu with pc := s.cpu.pc + 1#16 }) ∧
      ∀ k, k ≠ .brk → ∃ u, exec .rti (s.interruptEntry k) = .next u ∧ u.cpu = s.cpu

/-- The eight branches: the target is relative to the next instruction; no flag changes; one more cycle when taken, two
when the target lies in another page (R214 to R222). -/
def Obligations.Branches : Prop :=
  Encodes [(0x10#8, .bpl), (0x30#8, .bmi), (0x50#8, .bvc), (0x70#8, .bvs), (0x90#8, .bcc), (0xB0#8, .bcs), (0xD0#8, .bne),
      (0xF0#8, .beq)] ∧
    ∀ (s : State) (i : Instr) (k : Nat) (b : Bool),
      (i, k, b) ∈ [(Instr.bpl, flagN, false), (.bmi, flagN, true), (.bvc, flagV, false), (.bvs, flagV, true),
        (.bcc, flagC, false), (.bcs, flagC, true), (.bne, flagZ, false), (.beq, flagZ, true)] →
      let next := s.cpu.pc + 1#16
      let target := next + BitVec.ofInt 16 s.fetch.1.toInt
      let taken := bitOf s.cpu.p k = b
      ∃ t, exec i s = .next t ∧ KeepsMemory s t ∧
        (taken → t.cpu = { s.cpu with pc := target } ∧ Takes (if hi target = hi next then 2 else 3) s t) ∧
        (¬taken → t.cpu = { s.cpu with pc := next } ∧ Takes 1 s t)

/-! ### Flags, no-operations -/

/-- CLC SEC CLI SEI CLV CLD SED change one flag each (R226 to R232). -/
def Obligations.FlagInstructions : Prop :=
  Encodes [(0x18#8, .clc), (0x38#8, .sec), (0x58#8, .cli), (0x78#8, .sei), (0xB8#8, .clv), (0xD8#8, .cld),
      (0xF8#8, .sed)] ∧
    ∀ (s : State) (i : Instr) (k : Nat) (b : Bool),
      (i, k, b) ∈ [(Instr.clc, flagC, false), (.sec, flagC, true), (.cli, flagI, false), (.sei, flagI, true),
        (.clv, flagV, false), (.cld, flagD, false), (.sed, flagD, true)] →
      ∃ t, exec i s = .next t ∧ t.cpu = { s.cpu with p := t.cpu.p } ∧ bitOf t.cpu.p k = b ∧
        FlagsKept [k] s.cpu.p t.cpu.p ∧ KeepsMemory s t ∧ Takes 1 s t

/-- NOP and the unofficial NOPs: no register but PC changes, no memory, and the reads of their mode happen (R233, R258 to
R261). -/
def Obligations.NoOperations : Prop :=
  Encodes [(0xEA#8, .nop), (0x1A#8, .nopImplied 0x1A#8), (0x3A#8, .nopImplied 0x3A#8), (0x5A#8, .nopImplied 0x5A#8),
      (0x7A#8, .nopImplied 0x7A#8), (0xDA#8, .nopImplied 0xDA#8), (0xFA#8, .nopImplied 0xFA#8)] ∧
    Encodes [(0x80#8, .nopImmediate 0x80#8), (0x82#8, .nopImmediate 0x82#8), (0x89#8, .nopImmediate 0x89#8),
      (0xC2#8, .nopImmediate 0xC2#8), (0xE2#8, .nopImmediate 0xE2#8), (0x04#8, .nopZeropage 0x04#8),
      (0x44#8, .nopZeropage 0x44#8), (0x64#8, .nopZeropage 0x64#8), (0x0C#8, .nopAbsolute)] ∧
    Encodes [(0x14#8, .nopZeropageX 0x14#8), (0x34#8, .nopZeropageX 0x34#8), (0x54#8, .nopZeropageX 0x54#8),
      (0x74#8, .nopZeropageX 0x74#8), (0xD4#8, .nopZeropageX 0xD4#8), (0xF4#8, .nopZeropageX 0xF4#8)] ∧
    Encodes [(0x1C#8, .nopAbsoluteX 0x1C#8), (0x3C#8, .nopAbsoluteX 0x3C#8), (0x5C#8, .nopAbsoluteX 0x5C#8),
      (0x7C#8, .nopAbsoluteX 0x7C#8), (0xDC#8, .nopAbsoluteX 0xDC#8), (0xFC#8, .nopAbsoluteX 0xFC#8)] ∧
    ∀ (s : State) (op : Byte) (i : Instr) (n cycles : Nat),
      (i, n, cycles) ∈ [(Instr.nop, 0, 1), (.nopImplied op, 0, 1), (.nopImmediate op, 1, 1), (.nopZeropage op, 1, 2),
        (.nopZeropageX op, 1, 3), (.nopAbsolute, 2, 3), (.nopAbsoluteX op, 2, 3 + s.crossPenalty .absoluteX)] →
      ∃ t, exec i s = .next t ∧ t.cpu = { s.cpu with pc := s.cpu.pc + BitVec.ofNat 16 n } ∧ KeepsMemory s t ∧
        Takes cycles s t

/-! ### The rest of the unofficial opcodes -/

/-- ANC ALR ARR AXS on the immediate operand; ANE and LXA for every value of the two open constants (R245 to R250). -/
def Obligations.UnofficialImmediates : Prop :=
  Encodes [(0x0B#8, .anc 0x0B#8), (0x2B#8, .anc 0x2B#8), (0x4B#8, .alr), (0x6B#8, .arr), (0xCB#8, .axs),
      (0x8B#8, .ane), (0xAB#8, .lxa)] ∧
    ∀ (s : State) (op : Byte),
      let m := s.fetch.1
      let c := s.cpu
      let pc' := c.pc + 1#16
      let arrValue := (rorSpec (c.a &&& m) (bitOf c.p flagC)).value
      (∃ t, exec (.anc op) s = .next t ∧ t.cpu = { c with a := c.a &&& m, p := t.cpu.p, pc := pc' } ∧
          SetsNZC (c.a &&& m) (bitOf (c.a &&& m) 7) c.p t.cpu.p ∧ KeepsMemory s t ∧ Takes 1 s t) ∧
        (∃ t, exec .alr s = .next t ∧
          t.cpu = { c with a := (lsrSpec (c.a &&& m)).value, p := t.cpu.p, pc := pc' } ∧
          SetsNZC (lsrSpec (c.a &&& m)).value (bitOf (c.a &&& m) 0) c.p t.cpu.p ∧ KeepsMemory s t ∧ Takes 1 s t) ∧
        (∃ t, exec .arr s = .next t ∧ t.cpu = { c with a := arrValue, p := t.cpu.p, pc := pc' } ∧
          bitOf t.cpu.p flagN = bitOf arrValue 7 ∧ bitOf t.cpu.p flagZ = (arrValue == 0#8) ∧
          bitOf t.cpu.p flagC = bitOf arrValue 6 ∧ bitOf t.cpu.p flagV = (bitOf arrValue 6 ^^ bitOf arrValue 5) ∧
          FlagsKept [flagN, flagV, flagZ, flagC] c.p t.cpu.p ∧ KeepsMemory s t ∧ Takes 1 s t) ∧
        (∃ t, exec .axs s = .next t ∧ t.cpu = { c with x := (c.a &&& c.x) - m, p := t.cpu.p, pc := pc' } ∧
          SetsNZC ((c.a &&& c.x) - m) (decide (m.toNat ≤ (c.a &&& c.x).toNat)) c.p t.cpu.p ∧ KeepsMemory s t ∧
          Takes 1 s t) ∧
        (∃ t, exec .ane s = .next t ∧
          t.cpu = { c with a := (c.a ||| s.params.aneConst) &&& c.x &&& m, p := t.cpu.p, pc := pc' } ∧
          (m = 0#8 → t.cpu.a = 0#8) ∧ SetsNZ t.cpu.a c.p t.cpu.p ∧ KeepsMemory s t ∧ Takes 1 s t) ∧
        ∃ t, exec .lxa s = .next t ∧
          t.cpu = { c with
            a := (c.a ||| s.params.lxaConst) &&& m, x := (c.a ||| s.params.lxaConst) &&& m, p := t.cpu.p, pc := pc' } ∧
          (s.params.lxaConst = 0xFF#8 → t.cpu.a = m) ∧ SetsNZ t.cpu.a c.p t.cpu.p ∧ KeepsMemory s t ∧ Takes 1 s t

/-- SHA SHX SHY SHS (R252 to R255, R257): the register is stored, ANDed with the base's high byte plus one unless a stall
was pending at the dummy read; across a page the address's high byte is ANDed with the register. Only SHS changes a
register: S. -/
def Obligations.ShStores : Prop :=
  Encodes [(0x9F#8, .sha .absoluteY), (0x93#8, .sha .indirectIndexed), (0x9E#8, .shx), (0x9C#8, .shy), (0x9B#8, .shs)] ∧
    ∀ (s : State) (i : Instr) (m : AddrMode) (r sp : Byte),
      let ax := s.cpu.a &&& s.cpu.x
      (i, m, r, sp) ∈ [(Instr.sha .absoluteY, AddrMode.absoluteY, ax, s.cpu.s),
        (.sha .indirectIndexed, .indirectIndexed, ax, s.cpu.s), (.shx, .absoluteY, s.cpu.x, s.cpu.s),
        (.shy, .absoluteX, s.cpu.y, s.cpu.s), (.shs, .absoluteY, ax, ax)] →
      let s0 := s.setS sp
      let base := (s0.indexBase m).1
      let index := s.cpu.indexOf m
      let before := (s0.indexBase m).2
      let ea := base + zext index
      let value := if before.dev.stall = 0 then r &&& (hi base + 1#8) else r
      let addr := if 0xFF < (lo base).toNat + index.toNat then cat (hi ea &&& r) (lo ea) else ea
      let w := before.dummyRead (uncarried base index)
      ∃ t, exec i s = .next t ∧ t.cpu = { s.cpu with s := sp, pc := s.cpu.pc + BitVec.ofNat 16 m.operandBytes } ∧
        KeepsAllBut w addr s t ∧
        (s.MemoryOk → addr ≠ 0x4014#16 → ∀ l, w.WritesTo addr l → t.byteAt l = l.kept value) ∧
        (addr ≠ 0x4014#16 → Takes (writeCycles m) s t)

/-- JAM: the twelve opcodes leave PC at the opcode and jam the CPU; from then on a step is one read cycle that changes no
register and no memory (R262). -/
def Obligations.JamLocksUp : Prop :=
  Encodes [(0x02#8, .jam 0x02#8), (0x12#8, .jam 0x12#8), (0x22#8, .jam 0x22#8), (0x32#8, .jam 0x32#8),
      (0x42#8, .jam 0x42#8), (0x52#8, .jam 0x52#8), (0x62#8, .jam 0x62#8), (0x72#8, .jam 0x72#8)] ∧
    Encodes [(0x92#8, .jam 0x92#8), (0xB2#8, .jam 0xB2#8), (0xD2#8, .jam 0xD2#8), (0xF2#8, .jam 0xF2#8)] ∧
    (∀ (s : State) (op : Byte), ∃ t, exec (.jam op) s = .next t ∧
        t.cpu = { s.cpu with pc := s.cpu.pc - 1#16, jammed := true } ∧ KeepsMemory s t ∧ t.dev = s.dev) ∧
      ∀ s : State, s.cpu.jammed = true → ∃ t, step s = .next t ∧ t.cpu = { s.cpu with irqLatch := false } ∧
        KeepsMemory s t ∧ Takes 1 s t

/-! ### Invariants -/

/-- Every step keeps U stored as 1 and B stored as 0 (R23). -/
def Obligations.StepKeepsStatus : Prop := ∀ s t : State, s.StatusOk → step s = .next t → t.StatusOk

/-- Every step keeps every memory, and the frame buffer, in canonical form. -/
def Obligations.StepKeepsMemory : Prop := ∀ s t : State, s.MemoryOk → step s = .next t → t.MemoryOk

/-- Every step keeps the raster position in range, at most eight sprites, and three dots to a CPU cycle (R28, R29). -/
def Obligations.StepKeepsRaster : Prop := ∀ s t : State, s.RasterOk → step s = .next t → t.RasterOk

/-- Every step keeps the noise register non-zero and the length counters of disabled channels 0 (R368, R379, R392). -/
def Obligations.StepKeepsApu : Prop := ∀ s t : State, s.ApuOk → step s = .next t → t.ApuOk

/-- The state after the first reset, row by row of R532's table, and the invariants in it. PC and the data latch are what
the cartridge gives; the cartridge in it is the model's (log entry 2) and nothing here rests on it. RAM_INIT is at its
default (log entry 5); the saturated age is written 255 (log entry 10). -/
def Obligations.ResetState : Prop :=
  let s := State.reset
  let pulse : Pulse := ⟨false, 0, 0, ⟨false, false, 0, false, 0, 0⟩, false, 0, false, 0, false, 0, 0, 0, 0⟩
  (s.cpu = ⟨0, 0, 0, 0xFD, 0x24, s.peekWord 0xFFFC#16 0xFFFD#16, false, false⟩ ∧ s.dev.nmiRequest = false ∧
      s.dev.stall = 0 ∧ s.dev.lastReadAddr = 0xFFFD#16 ∧ s.dev.cycles = 7 ∧ s.dev.dataLatch = s.peek 0xFFFD#16) ∧
    (∀ l : Location, s.byteAt l = 0#8) ∧
    (s.dev.ppu.ctrl = 0 ∧ s.dev.ppu.mask = 0 ∧ s.dev.ppu.vblank = false ∧ s.dev.ppu.sprite0Hit = false ∧
      s.dev.ppu.spriteOverflow = false ∧ s.dev.ppu.oamAddr = 0 ∧ s.dev.ppu.scroll = ⟨0, 0, 0, false⟩ ∧
      s.dev.ppu.readBuffer = 0 ∧ s.dev.ppu.openBus.latch = 0 ∧ s.dev.ppu.vblAge = 255 ∧ s.dev.ppu.nmiLevel = false ∧
      s.dev.ppu.raster = ⟨0, 21, false, 0, 21⟩ ∧ s.dev.ppu.bg = ⟨0, 0, 0, 0, 0, 0, 0, 0⟩ ∧
      s.dev.ppu.spr.secOam = List.replicate 32 0xFF#8) ∧
    (s.dev.apu.seq = ⟨false, false, 7⟩ ∧ s.dev.apu.frameIrq = false ∧ s.dev.apu.dmcIrq = false ∧
      s.dev.apu.pulse1 = pulse ∧ s.dev.apu.pulse2 = pulse ∧ s.dev.apu.tri = ⟨false, false, 0, 0, false, 0, 0, 0, 0⟩ ∧
      s.dev.apu.noise = ⟨false, ⟨false, false, 0, false, 0, 0⟩, false, 0, 0, 1, 0⟩ ∧
      s.dev.apu.dmc = ⟨false, false, 0, 0, 0, 0, 0, 0, 0, 0, false, 0, 8, true⟩ ∧
      s.dev.apu.out = ⟨0, 0, 0, 0, 0, []⟩) ∧
    (s.dev.joy1 = ⟨0, 0, false⟩ ∧ s.dev.joy2 = ⟨0, 0, false⟩) ∧
    s.StatusOk ∧ s.MemoryOk ∧ s.RasterOk ∧ s.ApuOk

/-- `Reset` on any machine (R531, R533): S less three, I set, PC from the reset vector, the four latches R531 names
cleared, A, X, Y and the other flags kept, no memory written, what `Peek` shows in RAM and cartridge space kept, no button
changed, seven cycles. -/
def Obligations.WarmReset : Prop :=
  ∀ s : State,
    let t := s.warmReset
    t.cpu = { s.cpu with
        s := s.cpu.s - 3#8, p := s.cpu.p ||| 0x04#8, pc := s.peekWord 0xFFFC#16 0xFFFD#16, irqLatch := false
        jammed := false } ∧
      t.dev.nmiRequest = false ∧ t.dev.stall = 0 ∧ t.dev.lastReadAddr = 0xFFFD#16 ∧ KeepsMemory s t ∧
      (∀ a, Stable a → t.peek a = s.peek a) ∧ t.dev.cycles = s.dev.cycles + 7 ∧
      t.dev.joy1.buttons = s.dev.joy1.buttons ∧ t.dev.joy2.buttons = s.dev.joy2.buttons

/-! ### Devices -/

/-- A PPUSTATUS read: bits 6 and 5 are the sprite flags, the write toggle is reset, and vblank is returned and cleared but
for a read 0 to 2 dots after it was set, which sees 0 and leaves it, and one 3 dots after, which sees 0, clears it and
cancels the NMI (R304, R345). -/
def Obligations.StatusRead : Prop :=
  ∀ (e : Env) (d : Devices),
    let r := busRead e 0x2002#16 d
    let p := d.ppu
    bitOf r.1 6 = p.sprite0Hit ∧ bitOf r.1 5 = p.spriteOverflow ∧ r.1 &&& 0x1F#8 = p.openBus.latch &&& 0x1F#8 ∧
      r.2.ppu.scroll.w = false ∧
      bitOf r.1 7 = (p.vblank && decide (3 < p.vblAge)) ∧
      r.2.ppu.vblank = (p.vblank && decide (p.vblAge < 3)) ∧
      (p.vblank = true → p.vblAge = 3 → r.2.nmiRequest = false)

/-- Two PPUADDR writes from `w` = 0 set `v` and `t` to the fourteen address bits; two PPUSCROLL writes set `t` and `x`
from the two scroll bytes and leave `v` (R307, R308). -/
def Obligations.ScrollWrites : Prop :=
  ∀ (e : Env) (b1 b2 : Byte) (d : Devices), d.ppu.scroll.w = false →
    let twice (i : Nat) := (ppuRegWrite e i b2 (ppuRegWrite e i b1 d)).ppu.scroll
    (twice 6).v = ((b1 &&& 0x3F#8) ++ b2).setWidth 15 ∧ (twice 6).t = (twice 6).v ∧ (twice 6).w = false ∧
      (twice 5).v = d.ppu.scroll.v ∧ (twice 5).x = b1.setWidth 3 ∧ (twice 5).w = false ∧
      (twice 5).t =
        (b2.setWidth 3 ++ d.ppu.scroll.t.extractLsb' 10 2 ++ b2.extractLsb' 3 5 ++ b1.extractLsb' 3 5 : BitVec 15)

/-- Writing PPUCTRL raises an NMI request exactly when vblank is set and bit 7 goes from 0 to 1 with the level low, and
the request otherwise stays (R302, R342 to R344). -/
def Obligations.NmiEdge : Prop :=
  ∀ (v : Byte) (d : Devices), d.ppu.nmiLevel = (d.ppu.vblank && bitOf d.ppu.ctrl 7) →
    (writeCtrl v d).nmiRequest = (d.nmiRequest || (d.ppu.vblank && !bitOf d.ppu.ctrl 7 && bitOf v 7)) ∧
      (writeCtrl v d).ppu.nmiLevel = (d.ppu.vblank && bitOf v 7)

/-- The frame sequencer with the default steps: from the cycle before step 4, 4-step mode sets the frame IRQ unless
inhibited and restarts; 5-step mode never sets it (R372). -/
def Obligations.FrameIrq : Prop :=
  (∀ a : Apu, a.seq.mode5 = false → a.seq.cycle = 29830 →
      (a.clockSequencer Config.params.fsSteps).seq.cycle = 0 ∧
        (a.clockSequencer Config.params.fsSteps).frameIrq = (a.frameIrq || !a.seq.irqInhibit)) ∧
    ∀ (f : FsSteps) (a : Apu), a.seq.mode5 = true → (a.clockSequencer f).frameIrq = a.frameIrq

/-- A `$4015` read returns the flags and clears the frame IRQ but not the DMC IRQ; nothing else changes, and `Peek` shows
the same byte (R369). -/
def Obligations.ApuStatusRead : Prop :=
  ∀ s : State,
    let r := busRead s.env 0x4015#16 s.dev
    let a := s.dev.apu
    bitOf r.1 7 = a.dmcIrq ∧ bitOf r.1 6 = a.frameIrq ∧ bitOf r.1 5 = false ∧
      bitOf r.1 4 = (a.dmc.bytesLeft != 0#12) ∧ bitOf r.1 3 = (a.noise.length != 0#8) ∧
      bitOf r.1 2 = (a.tri.length != 0#8) ∧ bitOf r.1 1 = (a.pulse2.length != 0#8) ∧
      bitOf r.1 0 = (a.pulse1.length != 0#8) ∧ r.2 = { s.dev with apu := { a with frameIrq := false } } ∧
      s.peek 0x4015#16 = r.1

/-- After the strobe goes 1 then 0, read number `k` of a joypad port returns button `k` in bit 0, and 1 from the ninth
read on (R482, R483). -/
def Obligations.JoypadShiftsOut : Prop :=
  ∀ (j : Joypad) (ob : Byte) (k : Nat),
    let strobed := (j.write 1#8).write 0#8
    let before := (fun q : Joypad => (q.read ob).2)^[k] strobed
    (before.read ob).1 = (ob &&& 0xE0#8) ||| bitAt (if k < 8 then bitOf j.buttons k else true) 0

/-- MMC1: from an empty port, five writes of bytes with bit 7 clear, to any addresses and at any cycles of which no two
are consecutive, load their bits 0, first the lowest, into the register the fifth address selects, and empty the port
(R436). -/
def Obligations.Mmc1SerialLoad : Prop :=
  ∀ (m : Mmc1) (a0 a1 a2 a3 a4 : Word) (v0 v1 v2 v3 v4 : Byte) (c0 c1 c2 c3 c4 : Nat),
    m.count = 0 → (∀ l, m.lastWriteCycle = some l → l + 1 < c0) →
    c0 + 1 < c1 → c1 + 1 < c2 → c2 + 1 < c3 → c3 + 1 < c4 →
    (∀ v ∈ [v0, v1, v2, v3, v4], bitOf v 7 = false) →
    let m5 := ((((m.write a0 v0 c0).write a1 v1 c1).write a2 v2 c2).write a3 v3 c3).write a4 v4 c4
    let v := BitVec.ofBoolListLE [bitOf v0 0, bitOf v1 0, bitOf v2 0, bitOf v3 0, bitOf v4 0]
    let selected := a4.toNat / 8192 % 4
    m5.shift = 0#5 ∧ m5.count = 0 ∧ m5.lastWriteCycle = some c4 ∧
      m5.control = (if selected = 0 then v else m.control) ∧ m5.chr0 = (if selected = 1 then v else m.chr0) ∧
      m5.chr1 = (if selected = 2 then v else m.chr1) ∧ m5.prg = (if selected = 3 then v else m.prg)

/-- Bank arithmetic: the bank number is taken modulo the number of banks, bank `-k` is counted from the end, and the
offset always lies inside the memory (R430). A memory smaller than the window, which the rule's formula does not cover,
is repeated in it: that is the model's (log entry 12), and only the bound is said of it here. -/
def Obligations.BankArithmetic : Prop :=
  ∀ N S b a : Nat, 0 < S → 0 < N →
    bankOffset N S b a < N ∧
      (S ≤ N →
        bankOffset N S b a = b % (N / S) * S + a % S ∧
          ∀ k, 1 ≤ k → k ≤ N / S → bankOffsetFromEnd N S k a = (N / S - k) * S + a % S)
end

