-- ==== Sys2Proof/Laws/Memory.lean ====
section
/-! SUPPORT. The laws of the sparse memories: a read after a write, and the canonical form, which every memory operation
of the machine keeps. -/

namespace Sys2Proof.Machine

-- The package is also compiled as one text, where hundreds of proofs at once would need a thread each.
set_option Elab.async false

variable {w : Nat}

/-- A memory whose indexes start at `n` also starts at any smaller index. -/
theorem Cells.wfFrom_mono {m : Cells w} {j n : Nat} (h : Cells.wfFrom n m = true) (hj : j ≤ n) :
    Cells.wfFrom j m = true := by
  cases m with
  | nil => rfl
  | cons kv rest =>
    obtain ⟨k, v⟩ := kv
    simp only [Cells.wfFrom, Bool.and_eq_true, decide_eq_true_eq] at h ⊢
    exact ⟨⟨by omega, h.1.2⟩, h.2⟩

/-- An index below the start of a canonical memory is unlisted. -/
theorem Cells.read_below {m : Cells w} {n a : Nat} (h : Cells.wfFrom n m = true) (ha : a < n) :
    Cells.read m a = Cells.unlisted w := by
  induction m generalizing n with
  | nil => rfl
  | cons kv rest ih =>
    obtain ⟨k, v⟩ := kv
    simp only [Cells.wfFrom, Bool.and_eq_true, decide_eq_true_eq] at h
    rw [Cells.read, if_neg (by omega : k ≠ a)]
    exact ih h.2 (by omega)

/-- A write keeps the canonical form. -/
theorem Cells.wfFrom_write {m : Cells w} {n a : Nat} (h : Cells.wfFrom n m = true) (ha : n ≤ a) (v : BitVec w) :
    Cells.wfFrom n (Cells.write m a v) = true := by
  induction m generalizing n with
  | nil =>
    simp only [Cells.write]
    split
    · rfl
    · simp [Cells.wfFrom, *]
  | cons kv rest ih =>
    obtain ⟨k, x⟩ := kv
    have h0 := h
    simp only [Cells.wfFrom, Bool.and_eq_true, decide_eq_true_eq] at h
    simp only [Cells.write]
    split
    · split
      · exact h0
      · simp only [Cells.wfFrom, Bool.and_eq_true, decide_eq_true_eq]
        exact ⟨⟨ha, by assumption⟩, ⟨by omega, h.1.2⟩, h.2⟩
    · split
      · split
        · exact Cells.wfFrom_mono h.2 (by omega)
        · simp only [Cells.wfFrom, Bool.and_eq_true, decide_eq_true_eq]
          exact ⟨⟨ha, by assumption⟩, Cells.wfFrom_mono h.2 (by omega)⟩
      · simp only [Cells.wfFrom, Bool.and_eq_true, decide_eq_true_eq]
        exact ⟨h.1, ih h.2 (by omega)⟩

/-- A write keeps the canonical form. -/
theorem Cells.wf_write {m : Cells w} (h : m.wf = true) (a : Nat) (v : BitVec w) : (Cells.write m a v).wf = true :=
  Cells.wfFrom_write h (Nat.zero_le a) v

/-- A read of the written index of a canonical memory. -/
theorem Cells.read_write_self {m : Cells w} {n : Nat} (h : Cells.wfFrom n m = true) (a : Nat) (v : BitVec w) :
    Cells.read (Cells.write m a v) a = v := by
  induction m generalizing n with
  | nil =>
    simp only [Cells.write]
    split <;> simp [Cells.read, *]
  | cons kv rest ih =>
    obtain ⟨k, x⟩ := kv
    have h0 := h
    simp only [Cells.wfFrom, Bool.and_eq_true, decide_eq_true_eq] at h
    simp only [Cells.write]
    split
    · split
      · rw [Cells.read, if_neg (by omega), Cells.read_below h.2 (by omega), ‹v = _›]
      · simp [Cells.read]
    · split
      · split
        · rw [Cells.read_below h.2 (by omega), ‹v = _›]
        · simp [Cells.read]
      · rw [Cells.read, if_neg (by omega)]
        exact ih h.2

/-- A read of another index is untouched by a write. -/
theorem Cells.read_write_other (m : Cells w) {a b : Nat} (hab : b ≠ a) (v : BitVec w) :
    Cells.read (Cells.write m a v) b = Cells.read m b := by
  induction m with
  | nil =>
    simp only [Cells.write]
    split
    · rfl
    · simp [Cells.read, Ne.symm hab]
  | cons kv rest ih =>
    obtain ⟨k, x⟩ := kv
    simp only [Cells.write]
    split
    · split
      · rfl
      · rw [Cells.read, if_neg (Ne.symm hab)]
    · split
      · split
        · subst_vars
          rw [Cells.read, if_neg (Ne.symm hab)]
        · subst_vars
          rw [Cells.read, if_neg (Ne.symm hab), Cells.read, if_neg (Ne.symm hab)]
      · rw [Cells.read, Cells.read, ih]

/-- Read after write, same index. -/
theorem Memory.read_write_self {m : Memory} (h : m.wf = true) (a : Nat) (v : Byte) : (m.write a v).read a = v :=
  Cells.read_write_self h a v

/-- Read after write, another index. -/
theorem Memory.read_write_other (m : Memory) {a b : Nat} (hab : b ≠ a) (v : Byte) :
    (m.write a v).read b = m.read b :=
  Cells.read_write_other m hab v

/-- A write keeps the canonical form. -/
theorem Memory.wf_write {m : Memory} (h : m.wf = true) (a : Nat) (v : Byte) : (m.write a v).wf = true :=
  Cells.wf_write h a v

/-- The memory of a byte list is canonical. -/
theorem Memory.wf_ofBytes (a : Nat) (bs : List Byte) : Cells.wfFrom a (Memory.ofBytes a bs) = true := by
  induction bs generalizing a with
  | nil => rfl
  | cons b rest ih =>
    simp only [Memory.ofBytes]
    split
    · exact Cells.wfFrom_mono (ih (a + 1)) (Nat.le_succ a)
    · simp only [Cells.wfFrom, Bool.and_eq_true, decide_eq_true_eq]
      exact ⟨⟨Nat.le_refl a, by assumption⟩, ih (a + 1)⟩

/-- The canonical form of all memories, memory by memory. -/
theorem Memories.wf_iff (m : Memories) :
    m.wf = true ↔ m.ram.wf = true ∧ m.prgRam.wf = true ∧ m.chr.wf = true ∧ m.vram.wf = true ∧
      m.palette.wf = true ∧ m.oam.wf = true ∧ m.exRam.wf = true := by
  simp [Memories.wf, and_assoc]

/-- A store keeps the canonical form. -/
theorem Memories.wf_store {m : Memories} (h : m.wf = true) (l : Location) (v : Byte) : (m.store l v).wf = true := by
  obtain ⟨h1, h2, h3, h4, h5, h6, h7⟩ := (Memories.wf_iff m).mp h
  rw [Memories.wf_iff]
  unfold Memories.store
  split <;> refine ⟨?_, ?_, ?_, ?_, ?_, ?_, ?_⟩ <;> first | assumption | exact Memory.wf_write ‹_› _ _

/-- A write keeps the canonical form. -/
theorem Memories.wf_storeAt {m : Memories} (h : m.wf = true) (l : Option Location) (v : Byte) :
    (m.storeAt l v).wf = true := by
  cases l with
  | none => exact h
  | some l => exact Memories.wf_store h l v

/-- Each memory of canonical memories is canonical. -/
theorem Memories.wf_get {m : Memories} (h : m.wf = true) (k : MemKind) : (m.get k).wf = true := by
  obtain ⟨h1, h2, h3, h4, h5, h6, h7⟩ := (Memories.wf_iff m).mp h
  cases k <;> assumption

/-- What a store leaves at its own location. -/
theorem Memories.byteAt_store_self {m : Memories} (h : m.wf = true) (l : Location) (v : Byte) :
    (m.store l v).byteAt l = l.kept v := by
  obtain ⟨k, i⟩ := l
  have hk := Memories.wf_get h k
  cases k <;> exact Memory.read_write_self hk i _

/-- A store leaves every other location alone. -/
theorem Memories.byteAt_store_other (m : Memories) {l l' : Location} (hl : l' ≠ l) (v : Byte) :
    (m.store l v).byteAt l' = m.byteAt l' := by
  obtain ⟨k, i⟩ := l
  obtain ⟨k', i'⟩ := l'
  by_cases hk : k' = k
  · subst hk
    have hi : i' ≠ i := fun e => hl (by rw [e])
    cases k' <;> exact Memory.read_write_other _ hi _
  · cases k <;> cases k' <;> first | rfl | exact absurd rfl hk

/-- A write leaves every location alone that it does not store to. -/
theorem Memories.byteAt_storeAt_other (m : Memories) {l : Option Location} {l' : Location} (hl : l ≠ some l')
    (v : Byte) : (m.storeAt l v).byteAt l' = m.byteAt l' := by
  cases l with
  | none => rfl
  | some l => exact Memories.byteAt_store_other m (fun e => hl (by rw [e])) v

/-- OAM DMA keeps the canonical form. -/
theorem wf_dmaBytes (v : Byte) (n : Nat) (s : State) (h : s.mem.wf = true) : (s.dmaBytes v n).mem.wf = true := by
  induction n generalizing s with
  | zero => exact h
  | succ n ih => exact ih _ (Memories.wf_storeAt h _ _)

/-- `BusWrite` keeps the canonical form. -/
theorem wf_busWrite (a : Word) (v : Byte) (s : State) (h : s.mem.wf = true) : (s.busWrite a v).mem.wf = true := by
  unfold State.busWrite
  split
  · unfold State.oamDma
    refine wf_dmaBytes v 256 _ ?_
    split <;> exact h
  · exact Memories.wf_storeAt h _ _

end Sys2Proof.Machine
end

