-- ==== Sys2Proof/Laws/State.lean ====
section
/-! SUPPORT. One lemma for each field and each update of the state, all by definition: what the shared operations of
Ops.lean and Operands.lean leave alone. Later proofs cite these and do not unfold record updates. -/

namespace Sys2Proof.Machine

-- The package is also compiled as one text, where hundreds of proofs at once would need a thread each.
set_option Elab.async false

variable (s : State)

/-! ### `setPc` -/

@[simp] theorem State.setPc_cpu (v : Word) : (s.setPc v).cpu = { s.cpu with pc := v } := rfl

@[simp] theorem State.setPc_mem (v : Word) : (s.setPc v).mem = s.mem := rfl

@[simp] theorem State.setPc_dev (v : Word) : (s.setPc v).dev = s.dev := rfl

@[simp] theorem State.setPc_poll (v : Word) : (s.setPc v).poll = s.poll := rfl

@[simp] theorem State.setPc_params (v : Word) : (s.setPc v).params = s.params := rfl

@[simp] theorem State.setPc_cart (v : Word) : (s.setPc v).cart = s.cart := rfl

/-! ### `setP` -/

@[simp] theorem State.setP_cpu (v : Byte) : (s.setP v).cpu = { s.cpu with p := v } := rfl

@[simp] theorem State.setP_mem (v : Byte) : (s.setP v).mem = s.mem := rfl

@[simp] theorem State.setP_dev (v : Byte) : (s.setP v).dev = s.dev := rfl

@[simp] theorem State.setP_poll (v : Byte) : (s.setP v).poll = s.poll := rfl

@[simp] theorem State.setP_params (v : Byte) : (s.setP v).params = s.params := rfl

@[simp] theorem State.setP_cart (v : Byte) : (s.setP v).cart = s.cart := rfl

/-! ### `setA` -/

@[simp] theorem State.setA_cpu (v : Byte) : (s.setA v).cpu = { s.cpu with a := v } := rfl

@[simp] theorem State.setA_mem (v : Byte) : (s.setA v).mem = s.mem := rfl

@[simp] theorem State.setA_dev (v : Byte) : (s.setA v).dev = s.dev := rfl

@[simp] theorem State.setA_poll (v : Byte) : (s.setA v).poll = s.poll := rfl

@[simp] theorem State.setA_params (v : Byte) : (s.setA v).params = s.params := rfl

@[simp] theorem State.setA_cart (v : Byte) : (s.setA v).cart = s.cart := rfl

/-! ### `setX` -/

@[simp] theorem State.setX_cpu (v : Byte) : (s.setX v).cpu = { s.cpu with x := v } := rfl

@[simp] theorem State.setX_mem (v : Byte) : (s.setX v).mem = s.mem := rfl

@[simp] theorem State.setX_dev (v : Byte) : (s.setX v).dev = s.dev := rfl

@[simp] theorem State.setX_poll (v : Byte) : (s.setX v).poll = s.poll := rfl

@[simp] theorem State.setX_params (v : Byte) : (s.setX v).params = s.params := rfl

@[simp] theorem State.setX_cart (v : Byte) : (s.setX v).cart = s.cart := rfl

/-! ### `setY` -/

@[simp] theorem State.setY_cpu (v : Byte) : (s.setY v).cpu = { s.cpu with y := v } := rfl

@[simp] theorem State.setY_mem (v : Byte) : (s.setY v).mem = s.mem := rfl

@[simp] theorem State.setY_dev (v : Byte) : (s.setY v).dev = s.dev := rfl

@[simp] theorem State.setY_poll (v : Byte) : (s.setY v).poll = s.poll := rfl

@[simp] theorem State.setY_params (v : Byte) : (s.setY v).params = s.params := rfl

@[simp] theorem State.setY_cart (v : Byte) : (s.setY v).cart = s.cart := rfl

/-! ### `setS` -/

@[simp] theorem State.setS_cpu (v : Byte) : (s.setS v).cpu = { s.cpu with s := v } := rfl

@[simp] theorem State.setS_mem (v : Byte) : (s.setS v).mem = s.mem := rfl

@[simp] theorem State.setS_dev (v : Byte) : (s.setS v).dev = s.dev := rfl

@[simp] theorem State.setS_poll (v : Byte) : (s.setS v).poll = s.poll := rfl

@[simp] theorem State.setS_params (v : Byte) : (s.setS v).params = s.params := rfl

@[simp] theorem State.setS_cart (v : Byte) : (s.setS v).cart = s.cart := rfl

/-! ### `recordPoll` -/

@[simp] theorem State.recordPoll_cpu : s.recordPoll.cpu = s.cpu := (rfl)

@[simp] theorem State.recordPoll_mem : s.recordPoll.mem = s.mem := (rfl)

@[simp] theorem State.recordPoll_dev : s.recordPoll.dev = s.dev := (rfl)

@[simp] theorem State.recordPoll_params : s.recordPoll.params = s.params := (rfl)

@[simp] theorem State.recordPoll_cart : s.recordPoll.cart = s.cart := (rfl)

/-! ### `beginStep` -/

@[simp] theorem State.beginStep_cpu : s.beginStep.cpu = s.cpu := (rfl)

@[simp] theorem State.beginStep_mem : s.beginStep.mem = s.mem := (rfl)

@[simp] theorem State.beginStep_dev : s.beginStep.dev = s.dev := (rfl)

@[simp] theorem State.beginStep_params : s.beginStep.params = s.params := (rfl)

@[simp] theorem State.beginStep_cart : s.beginStep.cart = s.cart := (rfl)

/-! ### `endStep` -/

@[simp] theorem State.endStep_poll : s.endStep.poll = s.poll := (rfl)

@[simp] theorem State.endStep_mem : s.endStep.mem = s.mem := (rfl)

@[simp] theorem State.endStep_dev : s.endStep.dev = s.dev := (rfl)

@[simp] theorem State.endStep_params : s.endStep.params = s.params := (rfl)

@[simp] theorem State.endStep_cart : s.endStep.cart = s.cart := (rfl)

@[simp] theorem State.endStep_cpu : s.endStep.cpu = { s.cpu with irqLatch := s.latchIrq } := (rfl)

/-! ### `tick` -/

@[simp] theorem State.tick_cpu : s.tick.cpu = s.cpu := (rfl)

@[simp] theorem State.tick_mem : s.tick.mem = s.mem := (rfl)

@[simp] theorem State.tick_poll : s.tick.poll = s.poll := (rfl)

@[simp] theorem State.tick_params : s.tick.params = s.params := (rfl)

@[simp] theorem State.tick_cart : s.tick.cart = s.cart := (rfl)

/-! ### `latchData` -/

@[simp] theorem State.latchData_cpu (v : Byte) : (s.latchData v).cpu = s.cpu := (rfl)

@[simp] theorem State.latchData_mem (v : Byte) : (s.latchData v).mem = s.mem := (rfl)

@[simp] theorem State.latchData_poll (v : Byte) : (s.latchData v).poll = s.poll := (rfl)

@[simp] theorem State.latchData_params (v : Byte) : (s.latchData v).params = s.params := (rfl)

@[simp] theorem State.latchData_cart (v : Byte) : (s.latchData v).cart = s.cart := (rfl)

/-! ### `busWritePlain` -/

@[simp] theorem State.busWritePlain_cpu (a : Word) (v : Byte) : (s.busWritePlain a v).cpu = s.cpu := (rfl)

@[simp] theorem State.busWritePlain_poll (a : Word) (v : Byte) : (s.busWritePlain a v).poll = s.poll := (rfl)

@[simp] theorem State.busWritePlain_params (a : Word) (v : Byte) : (s.busWritePlain a v).params = s.params := (rfl)

@[simp] theorem State.busWritePlain_cart (a : Word) (v : Byte) : (s.busWritePlain a v).cart = s.cart := (rfl)

/-! ### `read` -/

@[simp] theorem State.read_cpu (a : Word) : (s.read a).2.cpu = s.cpu := (rfl)

@[simp] theorem State.read_mem (a : Word) : (s.read a).2.mem = s.mem := (rfl)

@[simp] theorem State.read_params (a : Word) : (s.read a).2.params = s.params := (rfl)

@[simp] theorem State.read_cart (a : Word) : (s.read a).2.cart = s.cart := (rfl)

/-! ### `dummyRead` -/

@[simp] theorem State.dummyRead_cpu (a : Word) : (s.dummyRead a).cpu = s.cpu := (rfl)

@[simp] theorem State.dummyRead_mem (a : Word) : (s.dummyRead a).mem = s.mem := (rfl)

@[simp] theorem State.dummyRead_params (a : Word) : (s.dummyRead a).params = s.params := (rfl)

@[simp] theorem State.dummyRead_cart (a : Word) : (s.dummyRead a).cart = s.cart := (rfl)

/-! ### `dummyFetch` -/

@[simp] theorem State.dummyFetch_cpu : s.dummyFetch.cpu = s.cpu := (rfl)

@[simp] theorem State.dummyFetch_mem : s.dummyFetch.mem = s.mem := (rfl)

@[simp] theorem State.dummyFetch_params : s.dummyFetch.params = s.params := (rfl)

@[simp] theorem State.dummyFetch_cart : s.dummyFetch.cart = s.cart := (rfl)

/-! ### `fetch` -/

@[simp] theorem State.fetch_mem : s.fetch.2.mem = s.mem := (rfl)

@[simp] theorem State.fetch_params : s.fetch.2.params = s.params := (rfl)

@[simp] theorem State.fetch_cart : s.fetch.2.cart = s.cart := (rfl)

@[simp] theorem State.fetch_cpu : s.fetch.2.cpu = { s.cpu with pc := s.cpu.pc + 1#16 } := (rfl)

/-! ### `fetchWord` -/

@[simp] theorem State.fetchWord_mem : s.fetchWord.2.mem = s.mem := (rfl)

@[simp] theorem State.fetchWord_params : s.fetchWord.2.params = s.params := (rfl)

@[simp] theorem State.fetchWord_cart : s.fetchWord.2.cart = s.cart := (rfl)

@[simp] theorem State.fetchWord_cpu :
    s.fetchWord.2.cpu = { s.cpu with pc := s.cpu.pc + 1#16 + 1#16 } := (rfl)

/-! ### `stackStep` -/

@[simp] theorem State.stackStep_mem : s.stackStep.mem = s.mem := (rfl)

@[simp] theorem State.stackStep_params : s.stackStep.params = s.params := (rfl)

@[simp] theorem State.stackStep_cart : s.stackStep.cart = s.cart := (rfl)

@[simp] theorem State.stackStep_cpu : s.stackStep.cpu = { s.cpu with s := s.cpu.s + 1#8 } := (rfl)

/-! ### `readStack` -/

@[simp] theorem State.readStack_cpu : s.readStack.2.cpu = s.cpu := (rfl)

@[simp] theorem State.readStack_mem : s.readStack.2.mem = s.mem := (rfl)

@[simp] theorem State.readStack_params : s.readStack.2.params = s.params := (rfl)

@[simp] theorem State.readStack_cart : s.readStack.2.cart = s.cart := (rfl)

/-! ### `readStackStep` -/

@[simp] theorem State.readStackStep_mem : s.readStackStep.2.mem = s.mem := (rfl)

@[simp] theorem State.readStackStep_params : s.readStackStep.2.params = s.params := (rfl)

@[simp] theorem State.readStackStep_cart : s.readStackStep.2.cart = s.cart := (rfl)

@[simp] theorem State.readStackStep_cpu : s.readStackStep.2.cpu = { s.cpu with s := s.cpu.s + 1#8 } := (rfl)

/-! ### `readPointer` -/

@[simp] theorem State.readPointer_cpu (z : Byte) : (s.readPointer z).2.cpu = s.cpu := (rfl)

@[simp] theorem State.readPointer_mem (z : Byte) : (s.readPointer z).2.mem = s.mem := (rfl)

@[simp] theorem State.readPointer_params (z : Byte) : (s.readPointer z).2.params = s.params := (rfl)

@[simp] theorem State.readPointer_cart (z : Byte) : (s.readPointer z).2.cart = s.cart := (rfl)

/-! ### `setPoll` -/

@[simp] theorem State.setPoll_cpu (b : Bool) : (s.setPoll b).cpu = s.cpu := (rfl)

@[simp] theorem State.setPoll_mem (b : Bool) : (s.setPoll b).mem = s.mem := (rfl)

@[simp] theorem State.setPoll_dev (b : Bool) : (s.setPoll b).dev = s.dev := (rfl)

@[simp] theorem State.setPoll_params (b : Bool) : (s.setPoll b).params = s.params := (rfl)

@[simp] theorem State.setPoll_cart (b : Bool) : (s.setPoll b).cart = s.cart := (rfl)

end Sys2Proof.Machine
end

