-- ==== Sys2Proof/Laws/Cycles.lean ====
section
/-! SUPPORT. What a CPU write cycle, a push and an interrupt entry leave alone: the registers, the parameters and the
cartridge image. -/

namespace Sys2Proof.Machine

-- The package is also compiled as one text, where hundreds of proofs at once would need a thread each.
set_option Elab.async false

/-- OAM DMA touches neither CPU nor parameters nor image. -/
theorem State.dmaBytes_frame (v : Byte) (n : Nat) (s : State) :
    (s.dmaBytes v n).cpu = s.cpu ∧ (s.dmaBytes v n).params = s.params ∧ (s.dmaBytes v n).cart = s.cart := by
  induction n generalizing s with
  | zero => exact ⟨rfl, rfl, rfl⟩
  | succ n ih => exact ih _

/-- `BusWrite` touches neither CPU nor parameters nor image. -/
theorem State.busWrite_frame (a : Word) (v : Byte) (s : State) :
    (s.busWrite a v).cpu = s.cpu ∧ (s.busWrite a v).params = s.params ∧ (s.busWrite a v).cart = s.cart := by
  unfold State.busWrite
  split
  · unfold State.oamDma
    obtain ⟨h1, h2, h3⟩ := State.dmaBytes_frame v 256 (if s.dev.cycles % 2 = 1 then s.tick.tick else s.tick)
    refine ⟨h1.trans ?_, h2.trans ?_, h3.trans ?_⟩ <;> split <;> rfl
  · exact ⟨rfl, rfl, rfl⟩

@[simp] theorem State.write_cpu (a : Word) (v : Byte) (s : State) : (s.write a v).cpu = s.cpu :=
  (State.busWrite_frame a v s.tick).1

@[simp] theorem State.write_params (a : Word) (v : Byte) (s : State) : (s.write a v).params = s.params :=
  (State.busWrite_frame a v s.tick).2.1

@[simp] theorem State.write_cart (a : Word) (v : Byte) (s : State) : (s.write a v).cart = s.cart :=
  (State.busWrite_frame a v s.tick).2.2

/-- A write cycle keeps the memories canonical. -/
theorem State.write_wf (a : Word) (v : Byte) (s : State) (h : s.mem.wf = true) : (s.write a v).mem.wf = true :=
  wf_busWrite a v s.tick h

/-- A write cycle to RAM stores the byte there and changes no other memory. -/
theorem State.write_mem_ram {a : Word} (v : Byte) (s : State) {i : Nat} (h : busTarget a = .ram i) :
    (s.write a v).mem = { s.mem with ram := s.mem.ram.write i v } := by
  have ha : a ≠ 0x4014#16 := by
    rintro rfl
    exact BusTarget.noConfusion (h : BusTarget.io 0x14 = .ram i)
  simp only [State.write, State.recordPoll_mem, State.latchData_mem, State.busWrite, if_neg ha]
  show s.mem.storeAt (busStoreLoc s.tick.env a s.tick.dev) v = _
  unfold busStoreLoc
  rw [h]
  rfl

@[simp] theorem State.push_cpu (v : Byte) (s : State) : (s.push v).cpu = { s.cpu with s := s.cpu.s - 1#8 } := by
  simp [State.push]

@[simp] theorem State.push_params (v : Byte) (s : State) : (s.push v).params = s.params := by simp [State.push]

@[simp] theorem State.push_cart (v : Byte) (s : State) : (s.push v).cart = s.cart := by simp [State.push]

/-- The stack lies in internal RAM (R160). -/
theorem busTarget_stackAddr (sp : Byte) : busTarget (stackAddr sp) = .ram (0x100 + sp.toNat) := by
  revert sp; decide +kernel

/-- Reading RAM on the bus changes no device. -/
theorem busRead_ram {a : Word} {i : Nat} (h : busTarget a = .ram i) (e : Env) (d : Devices) :
    busRead e a d = (e.mem.ram.read i, d) := by
  unfold busRead
  rw [h]

/-- A read cycle of RAM gives the byte stored there, whatever the devices do meanwhile. -/
theorem State.read_value_ram {a : Word} {i : Nat} (h : busTarget a = .ram i) (s : State) :
    (s.read a).1 = s.mem.ram.read i := by
  simp only [State.read, cpuRead, busRead_ram h]
  rfl

/-- What a push does to the memories: one byte of page 1. -/
theorem State.push_mem (v : Byte) (s : State) :
    (s.push v).mem = { s.mem with ram := s.mem.ram.write (0x100 + s.cpu.s.toNat) v } := by
  simp [State.push, State.write_mem_ram v s (busTarget_stackAddr s.cpu.s)]

@[simp] theorem State.maskIrq_cpu (s : State) : s.maskIrq.cpu = { s.cpu with p := setFlag flagI true s.cpu.p } := (rfl)

@[simp] theorem State.maskIrq_mem (s : State) : s.maskIrq.mem = s.mem := (rfl)

@[simp] theorem State.loadVector_cpu (v : Word) (s : State) :
    (s.loadVector v).cpu = { s.cpu with pc := (s.loadVector v).cpu.pc } := (rfl)

@[simp] theorem State.loadVector_mem (v : Word) (s : State) : (s.loadVector v).mem = s.mem := (rfl)

@[simp] theorem State.chooseVector_cpu (k : Interrupt) (s : State) : (s.chooseVector k).2.cpu = s.cpu := by
  cases k <;> simp only [State.chooseVector] <;> split <;> rfl

@[simp] theorem State.chooseVector_mem (k : Interrupt) (s : State) : (s.chooseVector k).2.mem = s.mem := by
  cases k <;> simp only [State.chooseVector] <;> split <;> rfl

end Sys2Proof.Machine
end

