-- ==== Sys2Proof/Laws/Flags.lean ====
section
/-! SUPPORT. What `setFlag` and `setNZ` do, flag by flag. -/

namespace Sys2Proof.Machine

-- The package is also compiled as one text, where hundreds of proofs at once would need a thread each.
set_option Elab.async false

/-- Flag `j` after writing flag `k`. -/
theorem bitOf_setFlag (k j : Nat) (hk : k < 8) (hj : j < 8) (b : Bool) (p : Byte) :
    bitOf (setFlag k b p) j = if j = k then b else bitOf p j := by
  have hbit : (1#8 <<< k).getLsbD j = decide (j = k) := by
    have : ∀ k : Fin 8, ∀ j : Fin 8, (1#8 <<< k.val).getLsbD j.val = decide (j.val = k.val) := by decide +kernel
    exact this ⟨k, hk⟩ ⟨j, hj⟩
  unfold setFlag bitOf
  cases b
  · rw [if_neg Bool.false_ne_true, BitVec.getLsbD_and, BitVec.getLsbD_not, hbit]
    by_cases hjk : j = k <;> simp [hjk, hj, hk]
  · rw [if_pos rfl, BitVec.getLsbD_or, hbit]
    by_cases hjk : j = k <;> simp [hjk]

/-- Flag `j` after `setNZ`. -/
theorem bitOf_setNZ (j : Nat) (hj : j < 8) (v p : Byte) :
    bitOf (setNZ v p) j = if j = 7 then bitOf v 7 else if j = 1 then v == 0#8 else bitOf p j := by
  unfold setNZ
  rw [bitOf_setFlag _ _ (by decide) hj, bitOf_setFlag _ _ (by decide) hj]

end Sys2Proof.Machine
end

