-- ==== Sys2Proof/Laws/Operands.lean ====
section
/-! SUPPORT. What the addressing modes' cycles leave alone: every register but PC, which moves past the operand bytes, and
every memory. -/

namespace Sys2Proof.Machine

-- The package is also compiled as one text, where hundreds of proofs at once would need a thread each.
set_option Elab.async false

/-- PC past `n` bytes. -/
def Cpu.advance (c : Cpu) (n : Nat) : Cpu := { c with pc := c.pc + BitVec.ofNat 16 n }

/-- Two increments of PC are one advance by two. -/
theorem Cpu.advance_two (c : Cpu) : ({ c with pc := c.pc + 1#16 + 1#16 } : Cpu) = c.advance 2 := by
  simp only [Cpu.advance, Cpu.mk.injEq, true_and, and_true]
  rw [BitVec.add_assoc]; rfl

/-- The address cycles of a mode that may cross a page. -/
theorem State.indexBase_frame (m : AddrMode) (s : State) :
    (s.indexBase m).2.mem = s.mem ∧ (s.indexBase m).2.params = s.params ∧ (s.indexBase m).2.cart = s.cart := by
  cases m <;> exact ⟨rfl, rfl, rfl⟩

@[simp] theorem State.zeropageIndexed_cpu (i : Byte) (s : State) :
    (s.zeropageIndexed i).2.cpu = { s.cpu with pc := s.cpu.pc + 1#16 } := rfl

@[simp] theorem State.indexBase_cpu (m : AddrMode) (s : State) :
    (s.indexBase m).2.cpu =
      match m with
      | .indirectIndexed => { s.cpu with pc := s.cpu.pc + 1#16 }
      | _ => { s.cpu with pc := s.cpu.pc + 1#16 + 1#16 } := by
  cases m <;> simp [State.indexBase]

/-- The effective address costs nothing but cycles: CPU. -/
theorem State.effectiveAddr_cpu (m : AddrMode) (s : State) :
    (s.effectiveAddr m).2.cpu = s.cpu.advance m.operandBytes := by
  cases m <;> simp [State.effectiveAddr, State.indexedAddr, AddrMode.operandBytes, ← Cpu.advance_two] <;> rfl

/-- The effective address costs nothing but cycles: memories, parameters, image. -/
theorem State.effectiveAddr_frame (m : AddrMode) (s : State) :
    (s.effectiveAddr m).2.mem = s.mem ∧ (s.effectiveAddr m).2.params = s.params ∧
      (s.effectiveAddr m).2.cart = s.cart := by
  cases m <;> exact ⟨rfl, rfl, rfl⟩

/-- The indexed read tail: CPU. -/
theorem IndexedAddr.readOperand_cpu (q : IndexedAddr) : q.readOperand.2.cpu = q.state.cpu := by
  unfold IndexedAddr.readOperand
  split <;> simp only [State.read_cpu]

/-- The indexed read tail: memories, parameters, image. -/
theorem IndexedAddr.readOperand_frame (q : IndexedAddr) :
    q.readOperand.2.mem = q.state.mem ∧ q.readOperand.2.params = q.state.params ∧
      q.readOperand.2.cart = q.state.cart := by
  unfold IndexedAddr.readOperand
  split <;> simp only [State.read_mem, State.read_params, State.read_cart, and_self]

/-- The read class: CPU. -/
theorem State.loadMem_cpu (m : AddrMode) (s : State) : (s.loadMem m).2.cpu = s.cpu.advance m.operandBytes := by
  cases m <;>
    simp only [State.loadMem, IndexedAddr.readOperand_cpu, State.read_cpu, State.effectiveAddr_cpu, State.indexedAddr,
      State.indexBase_cpu, AddrMode.operandBytes, ← Cpu.advance_two]
  rfl

/-- The read class: memories, parameters, image. -/
theorem State.loadMem_frame (m : AddrMode) (s : State) :
    (s.loadMem m).2.mem = s.mem ∧ (s.loadMem m).2.params = s.params ∧ (s.loadMem m).2.cart = s.cart := by
  cases m <;>
    simp only [State.loadMem, IndexedAddr.readOperand_frame, State.read_mem, State.read_params, State.read_cart,
      State.effectiveAddr_frame, State.indexedAddr, State.indexBase_frame, and_self]

/-- Immediate or memory operand: CPU. -/
theorem State.load_cpu (m : ReadMode) (s : State) : (s.load m).2.cpu = s.cpu.advance m.operandBytes := by
  cases m with
  | immediate => rfl
  | mem m => exact State.loadMem_cpu m s

/-- Immediate or memory operand: memories, parameters, image. -/
theorem State.load_frame (m : ReadMode) (s : State) :
    (s.load m).2.mem = s.mem ∧ (s.load m).2.params = s.params ∧ (s.load m).2.cart = s.cart := by
  cases m with
  | immediate => exact ⟨rfl, rfl, rfl⟩
  | mem m => exact State.loadMem_frame m s

/-- The write class: CPU, parameters, image. -/
theorem State.store_frame (m : AddrMode) (v : Byte) (s : State) :
    (s.store m v).cpu = s.cpu.advance m.operandBytes ∧ (s.store m v).params = s.params ∧
      (s.store m v).cart = s.cart := by
  refine ⟨?_, ?_, ?_⟩
  · exact (State.write_cpu _ _ _).trans (State.effectiveAddr_cpu m s)
  · exact (State.write_params _ _ _).trans (State.effectiveAddr_frame m s).2.1
  · exact (State.write_cart _ _ _).trans (State.effectiveAddr_frame m s).2.2

/-- The RMW class up to its dummy write: CPU, parameters, image. -/
theorem State.beginModify_frame (m : AddrMode) (s : State) :
    (s.beginModify m).state.cpu = s.cpu.advance m.operandBytes ∧ (s.beginModify m).state.params = s.params ∧
      (s.beginModify m).state.cart = s.cart := by
  refine ⟨?_, ?_, ?_⟩
  · exact (State.write_cpu _ _ _).trans (State.effectiveAddr_cpu m s)
  · exact (State.write_params _ _ _).trans (State.effectiveAddr_frame m s).2.1
  · exact (State.write_cart _ _ _).trans (State.effectiveAddr_frame m s).2.2

/-- The RMW class: the registers are those of the operation. -/
theorem State.modify_cpu (m : AddrMode) (op : RmwOp) (s : State) :
    (s.modify m op).cpu = (op (s.beginModify m).value (s.cpu.advance m.operandBytes)).2 := by
  rw [← (State.beginModify_frame m s).1]
  rfl

end Sys2Proof.Machine
end

