-- ==== Sys2Proof/Laws/PerInstr.lean ====
section
/-! SUPPORT. For every instruction, by constructor: the opcode byte of a well-formed instruction decodes to it
(30_encoding.md R100, R105). -/

namespace Sys2Proof.Laws.Opcode

-- The package is also compiled as one text, where hundreds of proofs at once would need a thread each.
set_option Elab.async false

/-- The opcode byte of `i`, if `i` is well-formed, decodes to `i`. -/
@[reducible] def Statement (i : Instr) : Prop := i.wf = true → decodeOpcode (opcodeByte i) = i

theorem lda (m : ReadMode) : Statement (.lda m) := by
  rcases m with _ | m
  · decide +kernel
  · cases m <;> decide +kernel

theorem ldx (m : ReadMode) : Statement (.ldx m) := by
  rcases m with _ | m
  · decide +kernel
  · cases m <;> decide +kernel

theorem ldy (m : ReadMode) : Statement (.ldy m) := by
  rcases m with _ | m
  · decide +kernel
  · cases m <;> decide +kernel

theorem sta (m : AddrMode) : Statement (.sta m) := by
  cases m <;> decide +kernel

theorem stx (m : AddrMode) : Statement (.stx m) := by
  cases m <;> decide +kernel

theorem sty (m : AddrMode) : Statement (.sty m) := by
  cases m <;> decide +kernel

theorem tax : Statement .tax := fun _ => rfl

theorem tay : Statement .tay := fun _ => rfl

theorem txa : Statement .txa := fun _ => rfl

theorem tya : Statement .tya := fun _ => rfl

theorem tsx : Statement .tsx := fun _ => rfl

theorem txs : Statement .txs := fun _ => rfl

theorem pha : Statement .pha := fun _ => rfl

theorem php : Statement .php := fun _ => rfl

theorem pla : Statement .pla := fun _ => rfl

theorem plp : Statement .plp := fun _ => rfl

theorem ora (m : ReadMode) : Statement (.ora m) := by
  rcases m with _ | m
  · decide +kernel
  · cases m <;> decide +kernel

theorem and (m : ReadMode) : Statement (.and m) := by
  rcases m with _ | m
  · decide +kernel
  · cases m <;> decide +kernel

theorem eor (m : ReadMode) : Statement (.eor m) := by
  rcases m with _ | m
  · decide +kernel
  · cases m <;> decide +kernel

theorem adc (m : ReadMode) : Statement (.adc m) := by
  rcases m with _ | m
  · decide +kernel
  · cases m <;> decide +kernel

theorem sbc (m : ReadMode) : Statement (.sbc m) := by
  rcases m with _ | m
  · decide +kernel
  · cases m <;> decide +kernel

theorem cmp (m : ReadMode) : Statement (.cmp m) := by
  rcases m with _ | m
  · decide +kernel
  · cases m <;> decide +kernel

theorem cpx (m : ReadMode) : Statement (.cpx m) := by
  rcases m with _ | m
  · decide +kernel
  · cases m <;> decide +kernel

theorem cpy (m : ReadMode) : Statement (.cpy m) := by
  rcases m with _ | m
  · decide +kernel
  · cases m <;> decide +kernel

theorem bit (m : AddrMode) : Statement (.bit m) := by
  cases m <;> decide +kernel

theorem asl (m : RmwMode) : Statement (.asl m) := by
  rcases m with _ | m
  · decide +kernel
  · cases m <;> decide +kernel

theorem lsr (m : RmwMode) : Statement (.lsr m) := by
  rcases m with _ | m
  · decide +kernel
  · cases m <;> decide +kernel

theorem rol (m : RmwMode) : Statement (.rol m) := by
  rcases m with _ | m
  · decide +kernel
  · cases m <;> decide +kernel

theorem ror (m : RmwMode) : Statement (.ror m) := by
  rcases m with _ | m
  · decide +kernel
  · cases m <;> decide +kernel

theorem inc (m : AddrMode) : Statement (.inc m) := by
  cases m <;> decide +kernel

theorem dec (m : AddrMode) : Statement (.dec m) := by
  cases m <;> decide +kernel

theorem inx : Statement .inx := fun _ => rfl

theorem iny : Statement .iny := fun _ => rfl

theorem dex : Statement .dex := fun _ => rfl

theorem dey : Statement .dey := fun _ => rfl

theorem jmp (m : JmpMode) : Statement (.jmp m) := by
  cases m <;> decide +kernel

theorem jsr : Statement .jsr := fun _ => rfl

theorem rts : Statement .rts := fun _ => rfl

theorem rti : Statement .rti := fun _ => rfl

theorem brk : Statement .brk := fun _ => rfl

theorem bpl : Statement .bpl := fun _ => rfl

theorem bmi : Statement .bmi := fun _ => rfl

theorem bvc : Statement .bvc := fun _ => rfl

theorem bvs : Statement .bvs := fun _ => rfl

theorem bcc : Statement .bcc := fun _ => rfl

theorem bcs : Statement .bcs := fun _ => rfl

theorem bne : Statement .bne := fun _ => rfl

theorem beq : Statement .beq := fun _ => rfl

theorem clc : Statement .clc := fun _ => rfl

theorem sec : Statement .sec := fun _ => rfl

theorem cli : Statement .cli := fun _ => rfl

theorem sei : Statement .sei := fun _ => rfl

theorem clv : Statement .clv := fun _ => rfl

theorem cld : Statement .cld := fun _ => rfl

theorem sed : Statement .sed := fun _ => rfl

theorem nop : Statement .nop := fun _ => rfl

theorem slo (m : AddrMode) : Statement (.slo m) := by
  cases m <;> decide +kernel

theorem rla (m : AddrMode) : Statement (.rla m) := by
  cases m <;> decide +kernel

theorem sre (m : AddrMode) : Statement (.sre m) := by
  cases m <;> decide +kernel

theorem rra (m : AddrMode) : Statement (.rra m) := by
  cases m <;> decide +kernel

theorem dcp (m : AddrMode) : Statement (.dcp m) := by
  cases m <;> decide +kernel

theorem isc (m : AddrMode) : Statement (.isc m) := by
  cases m <;> decide +kernel

theorem sax (m : AddrMode) : Statement (.sax m) := by
  cases m <;> decide +kernel

theorem lax (m : AddrMode) : Statement (.lax m) := by
  cases m <;> decide +kernel

theorem anc (op : Byte) : Statement (.anc op) := by
  revert op; decide +kernel

theorem alr : Statement .alr := fun _ => rfl

theorem arr : Statement .arr := fun _ => rfl

theorem axs : Statement .axs := fun _ => rfl

theorem ane : Statement .ane := fun _ => rfl

theorem lxa : Statement .lxa := fun _ => rfl

theorem sbcUnofficial : Statement .sbcUnofficial := fun _ => rfl

theorem sha (m : ShaMode) : Statement (.sha m) := by
  cases m <;> decide +kernel

theorem shx : Statement .shx := fun _ => rfl

theorem shy : Statement .shy := fun _ => rfl

theorem shs : Statement .shs := fun _ => rfl

theorem las : Statement .las := fun _ => rfl

theorem nopImplied (op : Byte) : Statement (.nopImplied op) := by
  revert op; decide +kernel

theorem nopImmediate (op : Byte) : Statement (.nopImmediate op) := by
  revert op; decide +kernel

theorem nopZeropage (op : Byte) : Statement (.nopZeropage op) := by
  revert op; decide +kernel

theorem nopZeropageX (op : Byte) : Statement (.nopZeropageX op) := by
  revert op; decide +kernel

theorem nopAbsolute : Statement .nopAbsolute := fun _ => rfl

theorem nopAbsoluteX (op : Byte) : Statement (.nopAbsoluteX op) := by
  revert op; decide +kernel

theorem jam (op : Byte) : Statement (.jam op) := by
  revert op; decide +kernel

end Sys2Proof.Laws.Opcode
end

