-- ==== Sys2Proof/Laws/Tick.lean ====
section
/-! SUPPORT. What a dot and a tick leave alone, and what a read cycle costs when the DMC is idle. -/

namespace Sys2Proof.Machine

-- The package is also compiled as one text, where hundreds of proofs at once would need a thread each.
set_option Elab.async false

/-- The parts of the devices outside the PPU, the mapper and the NMI request are the same. -/
def SameOutside (d d' : Devices) : Prop :=
  d'.cycles = d.cycles ∧ d'.dataLatch = d.dataLatch ∧ d'.lastReadAddr = d.lastReadAddr ∧ d'.stall = d.stall ∧
    d'.apu = d.apu ∧ d'.joy1 = d.joy1 ∧ d'.joy2 = d.joy2

theorem SameOutside.refl (d : Devices) : SameOutside d d := ⟨rfl, rfl, rfl, rfl, rfl, rfl, rfl⟩

theorem SameOutside.trans {a b c : Devices} (h : SameOutside a b) (h' : SameOutside b c) : SameOutside a c := by
  obtain ⟨h1, h2, h3, h4, h5, h6, h7⟩ := h
  obtain ⟨g1, g2, g3, g4, g5, g6, g7⟩ := h'
  exact ⟨g1.trans h1, g2.trans h2, g3.trans h3, g4.trans h4, g5.trans h5, g6.trans h6, g7.trans h7⟩

theorem sameOutside_updateNmi (d : Devices) : SameOutside d (updateNmi d) := ⟨rfl, rfl, rfl, rfl, rfl, rfl, rfl⟩

theorem sameOutside_setPpu (d : Devices) (p : Ppu) : SameOutside d (d.setPpu p) := ⟨rfl, rfl, rfl, rfl, rfl, rfl, rfl⟩

theorem sameOutside_ppuRead (e : Env) (a : PpuAddr) (d : Devices) : SameOutside d (ppuRead e a d).2 :=
  ⟨rfl, rfl, rfl, rfl, rfl, rfl, rfl⟩

theorem sameOutside_bgFetch (e : Env) (dot : Nat) (d : Devices) : SameOutside d (bgFetch e dot d) := by
  unfold bgFetch
  split
  · split
    · exact .refl d
    · exact (sameOutside_ppuRead e _ d).trans (sameOutside_setPpu _ _)
  · exact (sameOutside_ppuRead e _ d).trans (sameOutside_setPpu _ _)
  · exact (sameOutside_ppuRead e _ d).trans (sameOutside_setPpu _ _)
  · exact (sameOutside_ppuRead e _ d).trans (sameOutside_setPpu _ _)
  · exact sameOutside_setPpu _ _
  · exact .refl d

theorem sameOutside_bgDot (e : Env) (dot : Nat) (d : Devices) : SameOutside d (bgDot e dot d) := by
  unfold bgDot
  split
  · refine SameOutside.trans ?_ (sameOutside_bgFetch e dot _)
    split
    · refine SameOutside.trans ?_ (sameOutside_setPpu _ _)
      split
      · exact sameOutside_setPpu _ _
      · exact .refl d
    · split
      · exact sameOutside_setPpu _ _
      · exact .refl d
  · exact .refl d

theorem sameOutside_scrollDot (e : Env) (l : Int) (dot : Nat) (d : Devices) : SameOutside d (scrollDot e l dot d) := by
  unfold scrollDot
  split
  · exact sameOutside_setPpu _ _
  · split
    · exact sameOutside_setPpu _ _
    · split
      · exact sameOutside_setPpu _ _
      · split
        · exact (sameOutside_ppuRead e _ d).trans (sameOutside_setPpu _ _)
        · exact .refl d

theorem sameOutside_spriteFetch (e : Env) (l : Int) (dot : Nat) (d : Devices) :
    SameOutside d (spriteFetch e l dot d) := by
  unfold spriteFetch
  simp only
  split
  · exact sameOutside_ppuRead e _ d
  · exact sameOutside_ppuRead e _ d
  · exact (sameOutside_ppuRead e _ d).trans (sameOutside_setPpu _ _)
  · split
    · exact (sameOutside_ppuRead e _ d).trans (sameOutside_setPpu _ _)
    · exact sameOutside_ppuRead e _ d
  · split
    · exact sameOutside_setPpu _ _
    · exact .refl d
  · exact .refl d

theorem sameOutside_spriteDot (e : Env) (l : Int) (dot : Nat) (d : Devices) : SameOutside d (spriteDot e l dot d) := by
  unfold spriteDot
  split
  · refine SameOutside.trans ?_ (sameOutside_setPpu _ _)
    refine SameOutside.trans ?_ (sameOutside_spriteFetch e l dot _)
    split
    · exact sameOutside_setPpu _ _
    · exact .refl d
  · exact .refl d

theorem sameOutside_renderDot (e : Env) (l : Int) (dot : Nat) (d : Devices) : SameOutside d (renderDot e l dot d) := by
  unfold renderDot
  split
  · exact ((sameOutside_bgDot e dot d).trans (sameOutside_scrollDot e l dot _)).trans (sameOutside_spriteDot e l dot _)
  · exact .refl d

theorem sameOutside_outputDot (e : Env) (l : Int) (dot : Nat) (d : Devices) : SameOutside d (outputDot e l dot d) := by
  unfold outputDot
  split
  · exact sameOutside_setPpu _ _
  · exact .refl d

theorem sameOutside_vblankDot (l : Int) (dot : Nat) (d : Devices) : SameOutside d (vblankDot l dot d) := by
  unfold vblankDot
  split
  · split
    · exact sameOutside_setPpu _ _
    · split
      · exact sameOutside_setPpu _ _
      · exact .refl d
  · exact .refl d

/-- One dot of the PPU changes nothing but the PPU, the mapper and the NMI request (R283). -/
theorem sameOutside_ppuDot (e : Env) (d : Devices) : SameOutside d (ppuDot e d) := by
  unfold ppuDot
  refine SameOutside.trans ?_ (sameOutside_setPpu _ _)
  refine SameOutside.trans ?_ (sameOutside_updateNmi _)
  refine SameOutside.trans ?_ (sameOutside_outputDot e _ _ _)
  refine SameOutside.trans ?_ (sameOutside_renderDot e _ _ _)
  refine SameOutside.trans ?_ (sameOutside_vblankDot _ _ _)
  exact sameOutside_setPpu _ _

/-- A bus read without tick changes neither the cycle counter nor the stall counter nor the DMC. -/
theorem busRead_counters (e : Env) (a : Word) (d : Devices) :
    (busRead e a d).2.cycles = d.cycles ∧ (busRead e a d).2.stall = d.stall ∧
      (busRead e a d).2.apu.dmc = d.apu.dmc := by
  unfold busRead
  split
  · exact ⟨rfl, rfl, rfl⟩
  · unfold ppuRegRead
    split
    · exact ⟨rfl, rfl, rfl⟩
    · exact ⟨rfl, rfl, rfl⟩
    · unfold readPpuData
      simp only
      split <;> exact ⟨rfl, rfl, rfl⟩
    · exact ⟨rfl, rfl, rfl⟩
  · unfold ioRead
    split <;> exact ⟨rfl, rfl, rfl⟩
  · exact ⟨rfl, rfl, rfl⟩

/-- The sequencer does not touch the DMC. -/
theorem clockSequencer_dmc (f : FsSteps) (a : Apu) : (a.clockSequencer f).dmc = a.dmc := by
  unfold Apu.clockSequencer
  simp only
  split
  · rfl
  · split
    · rfl
    · split
      · split <;> rfl
      · split <;> rfl

/-- The DMC's timer does not touch the count of bytes left. -/
theorem dmc_clockTimer_bytesLeft (m : Dmc) : m.clockTimer.bytesLeft = m.bytesLeft := by
  unfold Dmc.clockTimer
  split
  · unfold Dmc.outputClock
    simp only
    split
    · split <;> rfl
    · rfl
  · rfl

/-- A tick with no DMC byte left asks for no stall, and the DMC stays without one. -/
theorem tick_idle (e : Env) (d : Devices) (h : d.apu.dmc.bytesLeft = 0#12) :
    (tick e d).cycles = d.cycles + 1 ∧ (tick e d).stall = d.stall ∧ (tick e d).apu.dmc.bytesLeft = 0#12 := by
  unfold tick
  have h3 := ((sameOutside_ppuDot e { d with cycles := d.cycles + 1 }).trans (sameOutside_ppuDot e _)).trans
    (sameOutside_ppuDot e _)
  generalize ppuDot e (ppuDot e (ppuDot e { d with cycles := d.cycles + 1 })) = p at h3 ⊢
  obtain ⟨hc, -, -, hs, ha, -, -⟩ := h3
  have hb : ((p.apu.clockSequencer e.params.fsSteps).clockTimers (p.cycles % 2 == 0)).dmc.bytesLeft = 0#12 := by
    show ((p.apu.clockSequencer e.params.fsSteps).dmc.clockTimer).bytesLeft = 0#12
    rw [dmc_clockTimer_bytesLeft, clockSequencer_dmc, ha]
    exact h
  have hr : ∀ q : Devices, q.apu.dmc.bytesLeft = 0#12 → dmcRefill e q = q := by
    intro q hq
    unfold dmcRefill Dmc.wantsByte
    rw [hq]
    simp
  unfold apuTick
  simp only
  rw [hr _ hb]
  exact ⟨hc, hs, hb⟩

/-- A read cycle with the DMC idle is one CPU cycle, and the DMC stays idle. -/
theorem read_idle (a : Word) (s : State) (hs : s.dev.stall = 0) (hb : s.dev.apu.dmc.bytesLeft = 0#12) :
    (s.read a).2.dev.cycles = s.dev.cycles + 1 ∧ (s.read a).2.dev.stall = 0 ∧
      (s.read a).2.dev.apu.dmc.bytesLeft = 0#12 := by
  have h0 : ∀ n, serveStall s.env (stallDummy s.env a s.dev) n s.dev = s.dev := by
    intro n
    cases n with
    | zero => rfl
    | succ n => rw [serveStall, if_pos hs]
  obtain ⟨t1, t2, t3⟩ := tick_idle s.env s.dev hb
  obtain ⟨b1, b2, b3⟩ := busRead_counters s.env a (tick s.env s.dev)
  simp only [State.read, State.recordPoll_dev, cpuRead, h0]
  exact ⟨b1.trans t1, (b2.trans t2).trans hs, (congrArg Dmc.bytesLeft b3).trans t3⟩

end Sys2Proof.Machine
end

