-- ==== Sys2Proof/Laws/Timing.lean ====
section
/-! SUPPORT. How many cycles the shared operations take when the DMC is idle, and that they leave it idle. -/

namespace Sys2Proof.Machine

-- The package is also compiled as one text, where hundreds of proofs at once would need a thread each.
set_option Elab.async false

/-- From `s` to `t` with the DMC idle: `n` cycles, and the DMC is idle again. -/
def TakesIdle (n : Nat) (s t : State) : Prop := s.DmcIdle → t.dev.cycles = s.dev.cycles + n ∧ t.DmcIdle

theorem TakesIdle.takes {n : Nat} {s t : State} (h : TakesIdle n s t) : Takes n s t := fun hi => (h hi).1

theorem TakesIdle.refl (s : State) : TakesIdle 0 s s := fun hi => ⟨rfl, hi⟩

theorem TakesIdle.trans {m n : Nat} {a b c : State} (h : TakesIdle m a b) (h' : TakesIdle n b c) :
    TakesIdle (m + n) a c := by
  intro hi
  obtain ⟨h1, h2⟩ := h hi
  obtain ⟨h3, h4⟩ := h' h2
  exact ⟨by omega, h4⟩

/-- A change that leaves the devices alone takes no time. -/
theorem TakesIdle.of_dev {n : Nat} {a b c : State} (h : TakesIdle n a b) (hd : c.dev = b.dev) : TakesIdle n a c := by
  intro hi
  obtain ⟨h1, h2⟩ := h hi
  unfold State.DmcIdle at h2 ⊢
  rw [hd]
  exact ⟨h1, h2⟩

theorem takes_read (a : Word) (s : State) : TakesIdle 1 s (s.read a).2 := by
  rintro ⟨hs, hb⟩
  obtain ⟨h1, h2, h3⟩ := read_idle a s hs hb
  exact ⟨h1, h2, h3⟩

theorem takes_dummyRead (a : Word) (s : State) : TakesIdle 1 s (s.dummyRead a) := takes_read a s

theorem takes_fetch (s : State) : TakesIdle 1 s s.fetch.2 := (takes_read s.cpu.pc s).of_dev rfl

theorem takes_dummyFetch (s : State) : TakesIdle 1 s s.dummyFetch := takes_read s.cpu.pc s

theorem takes_fetchWord (s : State) : TakesIdle 2 s s.fetchWord.2 := (takes_fetch s).trans (takes_fetch s.fetch.2)

theorem takes_stackStep (s : State) : TakesIdle 1 s s.stackStep := (takes_read _ s).of_dev rfl

theorem takes_readStack (s : State) : TakesIdle 1 s s.readStack.2 := takes_read _ s

theorem takes_readStackStep (s : State) : TakesIdle 1 s s.readStackStep.2 := (takes_readStack s).of_dev rfl

theorem takes_readPointer (z : Byte) (s : State) : TakesIdle 2 s (s.readPointer z).2 :=
  (takes_read (zext z) s).trans (takes_read (zext (z + 1#8)) (s.read (zext z)).2)

/-- A write cycle to RAM. -/
theorem takes_write_ram {a : Word} {i : Nat} (h : busTarget a = .ram i) (v : Byte) (s : State) :
    TakesIdle 1 s (s.write a v) := by
  have ha : a ≠ 0x4014#16 := by
    rintro rfl
    exact BusTarget.noConfusion (h : BusTarget.io 0x14 = .ram i)
  rintro ⟨hs, hb⟩
  obtain ⟨t1, t2, t3⟩ := tick_idle s.env s.dev hb
  have hd : (s.tick.busWrite a v).dev = s.tick.dev := by
    rw [State.busWrite, if_neg ha]
    show busWriteDevices s.tick.env a v s.tick.dev = _
    unfold busWriteDevices
    rw [h]
  have hw : (s.write a v).dev = { s.tick.dev with dataLatch := v } := by
    simp only [State.write, State.recordPoll_dev, State.latchData, hd]
  unfold State.DmcIdle
  rw [hw]
  exact ⟨t1, t2.trans hs, t3⟩

theorem takes_push (v : Byte) (s : State) : TakesIdle 1 s (s.push v) :=
  (takes_write_ram (busTarget_stackAddr s.cpu.s) v s).of_dev rfl

theorem takes_pushPc (s : State) : TakesIdle 2 s s.pushPc := (takes_push _ s).trans (takes_push _ _)

theorem takes_loadVector (vec : Word) (s : State) : TakesIdle 2 s (s.loadVector vec) :=
  ((takes_read vec s).trans (takes_read (vec + 1#16) (s.read vec).2)).of_dev rfl

/-- Cycles of a mode's address part: the write class less its write. -/
theorem takes_effectiveAddr (m : AddrMode) (s : State) : TakesIdle (writeCycles m - 1) s (s.effectiveAddr m).2 := by
  cases m
  · exact takes_fetch s
  · exact (takes_fetch s).trans (takes_dummyRead _ _)
  · exact (takes_fetch s).trans (takes_dummyRead _ _)
  · exact takes_fetchWord s
  · exact (takes_fetchWord s).trans (takes_dummyRead _ _)
  · exact (takes_fetchWord s).trans (takes_dummyRead _ _)
  · exact ((takes_fetch s).trans (takes_dummyRead _ _)).trans (takes_readPointer _ _)
  · exact ((takes_fetch s).trans (takes_readPointer _ _)).trans (takes_dummyRead _ _)

/-- The read tail of an indexed mode. -/
theorem takes_readOperand (q : IndexedAddr) :
    TakesIdle (1 + if pageCrossed q.base q.index then 1 else 0) q.state q.readOperand.2 := by
  unfold IndexedAddr.readOperand
  split
  · exact (takes_read _ _).trans (takes_read _ _)
  · exact takes_read _ _

/-- Cycles of a memory operand (R120). -/
theorem takes_loadMem (m : AddrMode) (s : State) : TakesIdle (s.readCycles m) s (s.loadMem m).2 := by
  cases m
  · exact (takes_effectiveAddr .zeropage s).trans (takes_read _ _)
  · exact (takes_effectiveAddr .zeropageX s).trans (takes_read _ _)
  · exact (takes_effectiveAddr .zeropageY s).trans (takes_read _ _)
  · exact (takes_effectiveAddr .absolute s).trans (takes_read _ _)
  · have h := (takes_fetchWord s).trans (takes_readOperand (s.indexedAddr .absoluteX))
    rw [← Nat.add_assoc] at h
    exact h
  · have h := (takes_fetchWord s).trans (takes_readOperand (s.indexedAddr .absoluteY))
    rw [← Nat.add_assoc] at h
    exact h
  · exact (takes_effectiveAddr .indexedIndirect s).trans (takes_read _ _)
  · have h := ((takes_fetch s).trans (takes_readPointer s.fetch.1 s.fetch.2)).trans
      (takes_readOperand (s.indexedAddr .indirectIndexed))
    rw [← Nat.add_assoc] at h
    exact h

/-- Cycles of a read-class operand (R120). -/
theorem takes_load (m : ReadMode) (s : State) : TakesIdle (s.operandCycles m) s (s.load m).2 := by
  cases m with
  | immediate => exact takes_fetch s
  | mem m => exact takes_loadMem m s

end Sys2Proof.Machine
end

