-- ==== Sys2Proof/Tests/Slice0.lean ====
section
/-! SUPPORT. Tests. The step tests are vectors of spec/95_test_vectors.md (named in each theorem), whose expected values
come from the spec. The witnesses show, for every statement of Obligations.lean that has hypotheses, a concrete state
and operands that meet them, each clause at a boundary of its range. -/

namespace Sys2Proof.Tests

/- One theorem at a time: each asks for a kernel evaluation. -/
set_option Elab.async false

open Sys2Proof.Machine

/-! ### Helpers -/

/-- A X Y S P. -/
structure Regs where
  a : Byte
  x : Byte
  y : Byte
  s : Byte
  p : Byte
  deriving DecidableEq, Repr

/-- What a vector lists after its step. -/
structure After where
  regs : Regs
  pc : Word
  cycles : Nat
  mem : List Byte
  deriving DecidableEq, Repr

/-- The state with bytes placed in its memories. -/
def place (cells : List (Nat × Byte)) (s : State) : State :=
  cells.foldl (fun t c => (t.placeByte (BitVec.ofNat 16 c.1) c.2).getD t) s

/-- The state after reset (R532) with bytes placed and registers set. -/
def start (cells : List (Nat × Byte)) (pc : Word) (r : Regs) : State :=
  let s := place cells State.reset
  { s with cpu := { s.cpu with a := r.a, x := r.x, y := r.y, s := r.s, p := r.p, pc := pc } }

/-- With values for the two open constants. -/
def withConstants (ane lxa : Byte) (s : State) : State :=
  { s with params := { s.params with aneConst := ane, lxaConst := lxa } }

/-- The registers, the cycles taken and the bytes at `addrs` after one step. -/
def after (addrs : List Nat) (s : State) : Option After :=
  match step s with
  | .next t =>
    some ⟨⟨t.cpu.a, t.cpu.x, t.cpu.y, t.cpu.s, t.cpu.p⟩, t.cpu.pc, t.dev.cycles - s.dev.cycles,
      addrs.map fun a => t.peek (BitVec.ofNat 16 a)⟩
  | _ => none

/-- Does a result give a next state? -/
def isNext (r : Result) : Bool :=
  match r with
  | .next _ => true
  | _ => false

theorem exists_of_isNext {r : Result} (h : isNext r = true) : ∃ t, r = .next t := by
  cases r with
  | next t => exact ⟨t, rfl⟩
  | fault f => exact nomatch f
  | refused _ => exact Bool.noConfusion (show false = true from h)

/-- The registers of the state after reset. -/
def regs0 : Regs := ⟨0#8, 0#8, 0#8, 0xFD#8, 0x24#8⟩

/-- Two bytes of code at 0x8000, PC there. -/
def at8000 (b0 b1 : Byte) : State := start [(0x8000, b0), (0x8001, b1)] 0x8000#16 regs0

/-! ### Well-formedness: for each check an ill-formed term it refuses -/

theorem test_wf_refuses_lda : Instr.wf (.lda (.mem .zeropageY)) = false := by decide

theorem test_wf_refuses_ldx : Instr.wf (.ldx (.mem .zeropageX)) = false := by decide

theorem test_wf_refuses_ldy : Instr.wf (.ldy (.mem .absoluteY)) = false := by decide

theorem test_wf_refuses_sta : Instr.wf (.sta .zeropageY) = false := by decide

theorem test_wf_refuses_stx : Instr.wf (.stx .absoluteY) = false := by decide

theorem test_wf_refuses_sty : Instr.wf (.sty .absoluteX) = false := by decide

theorem test_wf_refuses_ora : Instr.wf (.ora (.mem .zeropageY)) = false := by decide

theorem test_wf_refuses_and : Instr.wf (.and (.mem .zeropageY)) = false := by decide

theorem test_wf_refuses_eor : Instr.wf (.eor (.mem .zeropageY)) = false := by decide

theorem test_wf_refuses_adc : Instr.wf (.adc (.mem .zeropageY)) = false := by decide

theorem test_wf_refuses_sbc : Instr.wf (.sbc (.mem .zeropageY)) = false := by decide

theorem test_wf_refuses_cmp : Instr.wf (.cmp (.mem .zeropageY)) = false := by decide

theorem test_wf_refuses_cpx : Instr.wf (.cpx (.mem .zeropageX)) = false := by decide

theorem test_wf_refuses_cpy : Instr.wf (.cpy (.mem .absoluteX)) = false := by decide

theorem test_wf_refuses_bit : Instr.wf (.bit .absoluteX) = false := by decide

theorem test_wf_refuses_asl : Instr.wf (.asl (.mem .absoluteY)) = false := by decide

theorem test_wf_refuses_lsr : Instr.wf (.lsr (.mem .indirectIndexed)) = false := by decide

theorem test_wf_refuses_rol : Instr.wf (.rol (.mem .indexedIndirect)) = false := by decide

theorem test_wf_refuses_ror : Instr.wf (.ror (.mem .zeropageY)) = false := by decide

theorem test_wf_refuses_inc : Instr.wf (.inc .absoluteY) = false := by decide

theorem test_wf_refuses_dec : Instr.wf (.dec .indexedIndirect) = false := by decide

theorem test_wf_refuses_slo : Instr.wf (.slo .zeropageY) = false := by decide

theorem test_wf_refuses_rla : Instr.wf (.rla .zeropageY) = false := by decide

theorem test_wf_refuses_sre : Instr.wf (.sre .zeropageY) = false := by decide

theorem test_wf_refuses_rra : Instr.wf (.rra .zeropageY) = false := by decide

theorem test_wf_refuses_dcp : Instr.wf (.dcp .zeropageY) = false := by decide

theorem test_wf_refuses_isc : Instr.wf (.isc .zeropageY) = false := by decide

theorem test_wf_refuses_sax : Instr.wf (.sax .absoluteY) = false := by decide

theorem test_wf_refuses_lax : Instr.wf (.lax .absoluteX) = false := by decide

theorem test_wf_refuses_anc : Instr.wf (.anc 0x1B#8) = false := by decide

theorem test_wf_refuses_nopImplied : Instr.wf (.nopImplied 0xEA#8) = false := by decide

theorem test_wf_refuses_nopImmediate : Instr.wf (.nopImmediate 0xA2#8) = false := by decide

theorem test_wf_refuses_nopZeropage : Instr.wf (.nopZeropage 0x24#8) = false := by decide

theorem test_wf_refuses_nopZeropageX : Instr.wf (.nopZeropageX 0x94#8) = false := by decide

theorem test_wf_refuses_nopAbsoluteX : Instr.wf (.nopAbsoluteX 0x9C#8) = false := by decide

theorem test_wf_refuses_jam : Instr.wf (.jam 0x82#8) = false := by decide

/-! ### Decoding: a word of each constructor, its opcode byte written bit by bit from the *Encodings* lists of files 40
to 46; the operand bytes are 0xA5 and 0x3C -/

theorem test_decode_load_store :
    decodeTableWord 16 (0xA5_00 + 0b10101001) = some (.lda .immediate) ∧
      decodeTableWord 16 (0xA5_00 + 0b10110110) = some (.ldx (.mem .zeropageY)) ∧
      decodeTableWord 24 (0x3CA5_00 + 0b10111100) = some (.ldy (.mem .absoluteX)) ∧
      decodeTableWord 16 (0xA5_00 + 0b10000001) = some (.sta .indexedIndirect) ∧
      decodeTableWord 16 (0xA5_00 + 0b10010110) = some (.stx .zeropageY) ∧
      decodeTableWord 24 (0x3CA5_00 + 0b10001100) = some (.sty .absolute) := by decide +kernel

theorem test_decode_transfer_stack :
    decodeTableWord 8 0b10101010 = some (.tax) ∧
      decodeTableWord 8 0b10101000 = some (.tay) ∧
      decodeTableWord 8 0b10001010 = some (.txa) ∧
      decodeTableWord 8 0b10011000 = some (.tya) ∧
      decodeTableWord 8 0b10111010 = some (.tsx) ∧
      decodeTableWord 8 0b10011010 = some (.txs) ∧
      decodeTableWord 8 0b01001000 = some (.pha) ∧
      decodeTableWord 8 0b00001000 = some (.php) ∧
      decodeTableWord 8 0b01101000 = some (.pla) ∧
      decodeTableWord 8 0b00101000 = some (.plp) := by decide +kernel

theorem test_decode_alu :
    decodeTableWord 16 (0xA5_00 + 0b00010001) = some (.ora (.mem .indirectIndexed)) ∧
      decodeTableWord 24 (0x3CA5_00 + 0b00111001) = some (.and (.mem .absoluteY)) ∧
      decodeTableWord 16 (0xA5_00 + 0b01010101) = some (.eor (.mem .zeropageX)) ∧
      decodeTableWord 24 (0x3CA5_00 + 0b01111101) = some (.adc (.mem .absoluteX)) ∧
      decodeTableWord 24 (0x3CA5_00 + 0b11101101) = some (.sbc (.mem .absolute)) ∧
      decodeTableWord 16 (0xA5_00 + 0b11000101) = some (.cmp (.mem .zeropage)) ∧
      decodeTableWord 16 (0xA5_00 + 0b11100000) = some (.cpx .immediate) ∧
      decodeTableWord 24 (0x3CA5_00 + 0b11001100) = some (.cpy (.mem .absolute)) ∧
      decodeTableWord 16 (0xA5_00 + 0b00100100) = some (.bit .zeropage) := by decide +kernel

theorem test_decode_rmw :
    decodeTableWord 8 0b00001010 = some (.asl .accumulator) ∧
      decodeTableWord 16 (0xA5_00 + 0b01010110) = some (.lsr (.mem .zeropageX)) ∧
      decodeTableWord 24 (0x3CA5_00 + 0b00101110) = some (.rol (.mem .absolute)) ∧
      decodeTableWord 24 (0x3CA5_00 + 0b01111110) = some (.ror (.mem .absoluteX)) ∧
      decodeTableWord 16 (0xA5_00 + 0b11100110) = some (.inc .zeropage) ∧
      decodeTableWord 24 (0x3CA5_00 + 0b11001110) = some (.dec .absolute) ∧
      decodeTableWord 8 0b11101000 = some (.inx) ∧
      decodeTableWord 8 0b11001000 = some (.iny) ∧
      decodeTableWord 8 0b11001010 = some (.dex) ∧
      decodeTableWord 8 0b10001000 = some (.dey) := by decide +kernel

theorem test_decode_control :
    decodeTableWord 24 (0x3CA5_00 + 0b01001100) = some (.jmp .absolute) ∧
      decodeTableWord 24 (0x3CA5_00 + 0b01101100) = some (.jmp .indirect) ∧
      decodeTableWord 24 (0x3CA5_00 + 0b00100000) = some (.jsr) ∧
      decodeTableWord 8 0b01100000 = some (.rts) ∧
      decodeTableWord 8 0b01000000 = some (.rti) ∧
      decodeTableWord 8 0b00000000 = some (.brk) := by decide +kernel

theorem test_decode_branch :
    decodeTableWord 16 (0xA5_00 + 0b00010000) = some (.bpl) ∧
      decodeTableWord 16 (0xA5_00 + 0b00110000) = some (.bmi) ∧
      decodeTableWord 16 (0xA5_00 + 0b01010000) = some (.bvc) ∧
      decodeTableWord 16 (0xA5_00 + 0b01110000) = some (.bvs) ∧
      decodeTableWord 16 (0xA5_00 + 0b10010000) = some (.bcc) ∧
      decodeTableWord 16 (0xA5_00 + 0b10110000) = some (.bcs) ∧
      decodeTableWord 16 (0xA5_00 + 0b11010000) = some (.bne) ∧
      decodeTableWord 16 (0xA5_00 + 0b11110000) = some (.beq) := by decide +kernel

theorem test_decode_flags :
    decodeTableWord 8 0b00011000 = some (.clc) ∧
      decodeTableWord 8 0b00111000 = some (.sec) ∧
      decodeTableWord 8 0b01011000 = some (.cli) ∧
      decodeTableWord 8 0b01111000 = some (.sei) ∧
      decodeTableWord 8 0b10111000 = some (.clv) ∧
      decodeTableWord 8 0b11011000 = some (.cld) ∧
      decodeTableWord 8 0b11111000 = some (.sed) ∧
      decodeTableWord 8 0b11101010 = some (.nop) := by decide +kernel

theorem test_decode_unofficial_rmw :
    decodeTableWord 16 (0xA5_00 + 0b00010011) = some (.slo .indirectIndexed) ∧
      decodeTableWord 24 (0x3CA5_00 + 0b00111011) = some (.rla .absoluteY) ∧
      decodeTableWord 16 (0xA5_00 + 0b01000111) = some (.sre .zeropage) ∧
      decodeTableWord 16 (0xA5_00 + 0b01110111) = some (.rra .zeropageX) ∧
      decodeTableWord 24 (0x3CA5_00 + 0b11001111) = some (.dcp .absolute) ∧
      decodeTableWord 16 (0xA5_00 + 0b11100011) = some (.isc .indexedIndirect) := by decide +kernel

theorem test_decode_unofficial_other :
    decodeTableWord 16 (0xA5_00 + 0b10010111) = some (.sax .zeropageY) ∧
      decodeTableWord 24 (0x3CA5_00 + 0b10111111) = some (.lax .absoluteY) ∧
      decodeTableWord 16 (0xA5_00 + 0b00101011) = some (.anc 0x2B#8) ∧
      decodeTableWord 16 (0xA5_00 + 0b01001011) = some (.alr) ∧
      decodeTableWord 16 (0xA5_00 + 0b01101011) = some (.arr) ∧
      decodeTableWord 16 (0xA5_00 + 0b11001011) = some (.axs) ∧
      decodeTableWord 16 (0xA5_00 + 0b10001011) = some (.ane) ∧
      decodeTableWord 16 (0xA5_00 + 0b10101011) = some (.lxa) ∧
      decodeTableWord 16 (0xA5_00 + 0b11101011) = some (.sbcUnofficial) := by decide +kernel

theorem test_decode_unofficial_high :
    decodeTableWord 24 (0x3CA5_00 + 0b10011111) = some (.sha .absoluteY) ∧
      decodeTableWord 16 (0xA5_00 + 0b10010011) = some (.sha .indirectIndexed) ∧
      decodeTableWord 24 (0x3CA5_00 + 0b10011110) = some (.shx) ∧
      decodeTableWord 24 (0x3CA5_00 + 0b10011100) = some (.shy) ∧
      decodeTableWord 24 (0x3CA5_00 + 0b10011011) = some (.shs) ∧
      decodeTableWord 24 (0x3CA5_00 + 0b10111011) = some (.las) := by decide +kernel

theorem test_decode_unofficial_nop :
    decodeTableWord 8 0b11111010 = some (.nopImplied 0xFA#8) ∧
      decodeTableWord 16 (0xA5_00 + 0b10000000) = some (.nopImmediate 0x80#8) ∧
      decodeTableWord 16 (0xA5_00 + 0b01100100) = some (.nopZeropage 0x64#8) ∧
      decodeTableWord 16 (0xA5_00 + 0b11110100) = some (.nopZeropageX 0xF4#8) ∧
      decodeTableWord 24 (0x3CA5_00 + 0b00001100) = some (.nopAbsolute) ∧
      decodeTableWord 24 (0x3CA5_00 + 0b01111100) = some (.nopAbsoluteX 0x7C#8) ∧
      decodeTableWord 8 0b11110010 = some (.jam 0xF2#8) := by decide +kernel

/-- The opcode matrix names 256 instructions, no two alike (R105, R109). -/
theorem test_matrix_complete : opcodeMatrix.flatten.length = 256 ∧ opcodeMatrix.flatten.Nodup := by decide +kernel

/-! ### One step (95_test_vectors.md V40 to V46) -/

theorem test_V40_4_lda :
    after []
      (start [(0x8000, 0xB5#8), (0x8001, 0x80#8), (0x007F, 0x42#8), (0x017F, 0x99#8)] 0x8000#16 ⟨0x00#8, 0xFF#8, 0x00#8, 0xFD#8, 0x24#8⟩) =
      some ⟨⟨0x42#8, 0xFF#8, 0x00#8, 0xFD#8, 0x24#8⟩, 0x8002#16, 4, []⟩ := by decide +kernel

theorem test_V40_10_lda :
    after []
      (start [(0x8000, 0xB1#8), (0x8001, 0x80#8), (0x0080, 0xF0#8), (0x0081, 0x02#8), (0x0310, 0x44#8)] 0x8000#16 ⟨0x00#8, 0x00#8, 0x20#8, 0xFD#8, 0x24#8⟩) =
      some ⟨⟨0x44#8, 0x00#8, 0x20#8, 0xFD#8, 0x24#8⟩, 0x8002#16, 6, []⟩ := by decide +kernel

theorem test_V40_12_ldx :
    after []
      (start [(0x8000, 0xB6#8), (0x8001, 0x10#8), (0x0015, 0xFE#8)] 0x8000#16 ⟨0x00#8, 0x00#8, 0x05#8, 0xFD#8, 0x24#8⟩) =
      some ⟨⟨0x00#8, 0xFE#8, 0x05#8, 0xFD#8, 0xA4#8⟩, 0x8002#16, 4, []⟩ := by decide +kernel

theorem test_V40_14_ldy :
    after []
      (start [(0x8000, 0xBC#8), (0x8001, 0x00#8), (0x8002, 0x03#8), (0x0305, 0x01#8)] 0x8000#16 ⟨0x00#8, 0x05#8, 0x00#8, 0xFD#8, 0x24#8⟩) =
      some ⟨⟨0x00#8, 0x05#8, 0x01#8, 0xFD#8, 0x24#8⟩, 0x8003#16, 4, []⟩ := by decide +kernel

theorem test_V40_19_sta :
    after [0x0310, 0x0210]
      (start [(0x8000, 0x9D#8), (0x8001, 0xF0#8), (0x8002, 0x02#8)] 0x8000#16 ⟨0xCD#8, 0x20#8, 0x00#8, 0xFD#8, 0x24#8⟩) =
      some ⟨⟨0xCD#8, 0x20#8, 0x00#8, 0xFD#8, 0x24#8⟩, 0x8003#16, 5, [0xCD#8, 0x00#8]⟩ := by decide +kernel

theorem test_V40_20_sta :
    after [0x0310]
      (start [(0x8000, 0x91#8), (0x8001, 0x80#8), (0x0080, 0xF0#8), (0x0081, 0x02#8)] 0x8000#16 ⟨0xEE#8, 0x00#8, 0x20#8, 0xFD#8, 0x24#8⟩) =
      some ⟨⟨0xEE#8, 0x00#8, 0x20#8, 0xFD#8, 0x24#8⟩, 0x8002#16, 6, [0xEE#8]⟩ := by decide +kernel

theorem test_V40_22_stx :
    after [0x0008]
      (start [(0x8000, 0x96#8), (0x8001, 0x10#8)] 0x8000#16 ⟨0x00#8, 0x99#8, 0xF8#8, 0xFD#8, 0x24#8⟩) =
      some ⟨⟨0x00#8, 0x99#8, 0xF8#8, 0xFD#8, 0x24#8⟩, 0x8002#16, 4, [0x99#8]⟩ := by decide +kernel

theorem test_V40_23_sty :
    after [0x0011]
      (start [(0x8000, 0x94#8), (0x8001, 0x10#8)] 0x8000#16 ⟨0x00#8, 0x01#8, 0x42#8, 0xFD#8, 0x24#8⟩) =
      some ⟨⟨0x00#8, 0x01#8, 0x42#8, 0xFD#8, 0x24#8⟩, 0x8002#16, 4, [0x42#8]⟩ := by decide +kernel

theorem test_V41_1_tax :
    after []
      (start [(0x8000, 0xAA#8)] 0x8000#16 ⟨0x00#8, 0x55#8, 0x00#8, 0xFD#8, 0x24#8⟩) =
      some ⟨⟨0x00#8, 0x00#8, 0x00#8, 0xFD#8, 0x26#8⟩, 0x8001#16, 2, []⟩ := by decide +kernel

theorem test_V41_2_tay :
    after []
      (start [(0x8000, 0xA8#8)] 0x8000#16 ⟨0x80#8, 0x00#8, 0x00#8, 0xFD#8, 0x24#8⟩) =
      some ⟨⟨0x80#8, 0x00#8, 0x80#8, 0xFD#8, 0xA4#8⟩, 0x8001#16, 2, []⟩ := by decide +kernel

theorem test_V41_3_txa :
    after []
      (start [(0x8000, 0x8A#8)] 0x8000#16 ⟨0x00#8, 0x7F#8, 0x00#8, 0xFD#8, 0x24#8⟩) =
      some ⟨⟨0x7F#8, 0x7F#8, 0x00#8, 0xFD#8, 0x24#8⟩, 0x8001#16, 2, []⟩ := by decide +kernel

theorem test_V41_4_tya :
    after []
      (start [(0x8000, 0x98#8)] 0x8000#16 ⟨0x00#8, 0x00#8, 0xFF#8, 0xFD#8, 0x24#8⟩) =
      some ⟨⟨0xFF#8, 0x00#8, 0xFF#8, 0xFD#8, 0xA4#8⟩, 0x8001#16, 2, []⟩ := by decide +kernel

theorem test_V41_5_txs :
    after []
      (start [(0x8000, 0x9A#8)] 0x8000#16 ⟨0x00#8, 0x00#8, 0x00#8, 0xFD#8, 0x24#8⟩) =
      some ⟨⟨0x00#8, 0x00#8, 0x00#8, 0x00#8, 0x24#8⟩, 0x8001#16, 2, []⟩ := by decide +kernel

theorem test_V41_6_tsx :
    after []
      (start [(0x8000, 0xBA#8)] 0x8000#16 ⟨0x00#8, 0x00#8, 0x00#8, 0x80#8, 0x24#8⟩) =
      some ⟨⟨0x00#8, 0x80#8, 0x00#8, 0x80#8, 0xA4#8⟩, 0x8001#16, 2, []⟩ := by decide +kernel

theorem test_V41_8_pha :
    after [0x0100]
      (start [(0x8000, 0x48#8)] 0x8000#16 ⟨0x3C#8, 0x00#8, 0x00#8, 0x00#8, 0x24#8⟩) =
      some ⟨⟨0x3C#8, 0x00#8, 0x00#8, 0xFF#8, 0x24#8⟩, 0x8001#16, 3, [0x3C#8]⟩ := by decide +kernel

theorem test_V41_10_php :
    after [0x01FD]
      (start [(0x8000, 0x08#8)] 0x8000#16 ⟨0x00#8, 0x00#8, 0x00#8, 0xFD#8, 0xE7#8⟩) =
      some ⟨⟨0x00#8, 0x00#8, 0x00#8, 0xFC#8, 0xE7#8⟩, 0x8001#16, 3, [0xF7#8]⟩ := by decide +kernel

theorem test_V41_12_pla :
    after []
      (start [(0x8000, 0x68#8), (0x0100, 0x90#8), (0x01FF, 0x01#8)] 0x8000#16 ⟨0x00#8, 0x00#8, 0x00#8, 0xFF#8, 0x24#8⟩) =
      some ⟨⟨0x90#8, 0x00#8, 0x00#8, 0x00#8, 0xA4#8⟩, 0x8001#16, 4, []⟩ := by decide +kernel

theorem test_V41_13_plp :
    after []
      (start [(0x8000, 0x28#8), (0x01FD, 0xFF#8)] 0x8000#16 ⟨0x00#8, 0x00#8, 0x00#8, 0xFC#8, 0x24#8⟩) =
      some ⟨⟨0x00#8, 0x00#8, 0x00#8, 0xFD#8, 0xEF#8⟩, 0x8001#16, 4, []⟩ := by decide +kernel

theorem test_V42_1_adc :
    after []
      (start [(0x8000, 0x69#8), (0x8001, 0x50#8)] 0x8000#16 ⟨0x50#8, 0x00#8, 0x00#8, 0xFD#8, 0x24#8⟩) =
      some ⟨⟨0xA0#8, 0x00#8, 0x00#8, 0xFD#8, 0xE4#8⟩, 0x8002#16, 2, []⟩ := by decide +kernel

theorem test_V42_4_adc :
    after []
      (start [(0x8000, 0x69#8), (0x8001, 0xD0#8)] 0x8000#16 ⟨0x90#8, 0x00#8, 0x00#8, 0xFD#8, 0x24#8⟩) =
      some ⟨⟨0x60#8, 0x00#8, 0x00#8, 0xFD#8, 0x65#8⟩, 0x8002#16, 2, []⟩ := by decide +kernel

theorem test_V42_9_sbc :
    after []
      (start [(0x8000, 0xE9#8), (0x8001, 0x00#8)] 0x8000#16 ⟨0x80#8, 0x00#8, 0x00#8, 0xFD#8, 0x24#8⟩) =
      some ⟨⟨0x7F#8, 0x00#8, 0x00#8, 0xFD#8, 0x65#8⟩, 0x8002#16, 2, []⟩ := by decide +kernel

theorem test_V42_13_cmp :
    after []
      (start [(0x8000, 0xC9#8), (0x8001, 0x00#8)] 0x8000#16 ⟨0x80#8, 0x00#8, 0x00#8, 0xFD#8, 0x64#8⟩) =
      some ⟨⟨0x80#8, 0x00#8, 0x00#8, 0xFD#8, 0xE5#8⟩, 0x8002#16, 2, []⟩ := by decide +kernel

theorem test_V42_14_cpx :
    after []
      (start [(0x8000, 0xE4#8), (0x8001, 0x10#8), (0x0010, 0x06#8)] 0x8000#16 ⟨0x00#8, 0x05#8, 0x00#8, 0xFD#8, 0x24#8⟩) =
      some ⟨⟨0x00#8, 0x05#8, 0x00#8, 0xFD#8, 0xA4#8⟩, 0x8002#16, 3, []⟩ := by decide +kernel

theorem test_V42_15_cpy :
    after []
      (start [(0x8000, 0xCC#8), (0x8001, 0x00#8), (0x8002, 0x03#8), (0x0300, 0x01#8)] 0x8000#16 ⟨0x00#8, 0x00#8, 0xFF#8, 0xFD#8, 0x24#8⟩) =
      some ⟨⟨0x00#8, 0x00#8, 0xFF#8, 0xFD#8, 0xA5#8⟩, 0x8003#16, 4, []⟩ := by decide +kernel

theorem test_V42_16_and :
    after []
      (start [(0x8000, 0x29#8), (0x8001, 0x0F#8)] 0x8000#16 ⟨0xF0#8, 0x00#8, 0x00#8, 0xFD#8, 0x24#8⟩) =
      some ⟨⟨0x00#8, 0x00#8, 0x00#8, 0xFD#8, 0x26#8⟩, 0x8002#16, 2, []⟩ := by decide +kernel

theorem test_V42_17_ora :
    after []
      (start [(0x8000, 0x05#8), (0x8001, 0x10#8), (0x0010, 0x80#8)] 0x8000#16 ⟨0x01#8, 0x00#8, 0x00#8, 0xFD#8, 0x24#8⟩) =
      some ⟨⟨0x81#8, 0x00#8, 0x00#8, 0xFD#8, 0xA4#8⟩, 0x8002#16, 3, []⟩ := by decide +kernel

theorem test_V42_18_eor :
    after []
      (start [(0x8000, 0x51#8), (0x8001, 0x80#8), (0x0080, 0xFF#8), (0x0081, 0x02#8), (0x0300, 0xFF#8)] 0x8000#16 ⟨0xFF#8, 0x00#8, 0x01#8, 0xFD#8, 0x24#8⟩) =
      some ⟨⟨0x00#8, 0x00#8, 0x01#8, 0xFD#8, 0x26#8⟩, 0x8002#16, 6, []⟩ := by decide +kernel

theorem test_V42_19_bit :
    after []
      (start [(0x8000, 0x24#8), (0x8001, 0x10#8), (0x0010, 0xC0#8)] 0x8000#16 ⟨0x01#8, 0x00#8, 0x00#8, 0xFD#8, 0x24#8⟩) =
      some ⟨⟨0x01#8, 0x00#8, 0x00#8, 0xFD#8, 0xE6#8⟩, 0x8002#16, 3, []⟩ := by decide +kernel

theorem test_V43_5_asl :
    after [0x0010]
      (start [(0x8000, 0x06#8), (0x8001, 0x10#8), (0x0010, 0x40#8)] 0x8000#16 ⟨0x00#8, 0x00#8, 0x00#8, 0xFD#8, 0x24#8⟩) =
      some ⟨⟨0x00#8, 0x00#8, 0x00#8, 0xFD#8, 0xA4#8⟩, 0x8002#16, 5, [0x80#8]⟩ := by decide +kernel

theorem test_V43_6_lsr :
    after [0x0011]
      (start [(0x8000, 0x56#8), (0x8001, 0x10#8), (0x0011, 0xFF#8)] 0x8000#16 ⟨0x00#8, 0x01#8, 0x00#8, 0xFD#8, 0x24#8⟩) =
      some ⟨⟨0x00#8, 0x01#8, 0x00#8, 0xFD#8, 0x25#8⟩, 0x8002#16, 6, [0x7F#8]⟩ := by decide +kernel

theorem test_V43_7_rol :
    after [0x0300]
      (start [(0x8000, 0x2E#8), (0x8001, 0x00#8), (0x8002, 0x03#8), (0x0300, 0xFF#8)] 0x8000#16 ⟨0x00#8, 0x00#8, 0x00#8, 0xFD#8, 0x24#8⟩) =
      some ⟨⟨0x00#8, 0x00#8, 0x00#8, 0xFD#8, 0xA5#8⟩, 0x8003#16, 6, [0xFE#8]⟩ := by decide +kernel

theorem test_V43_8_ror :
    after [0x0310]
      (start [(0x8000, 0x7E#8), (0x8001, 0xF0#8), (0x8002, 0x02#8), (0x0310, 0x02#8)] 0x8000#16 ⟨0x00#8, 0x20#8, 0x00#8, 0xFD#8, 0x25#8⟩) =
      some ⟨⟨0x00#8, 0x20#8, 0x00#8, 0xFD#8, 0xA4#8⟩, 0x8003#16, 7, [0x81#8]⟩ := by decide +kernel

theorem test_V43_11_dec :
    after [0x0010]
      (start [(0x8000, 0xC6#8), (0x8001, 0x10#8), (0x0010, 0x00#8)] 0x8000#16 ⟨0x00#8, 0x00#8, 0x00#8, 0xFD#8, 0x24#8⟩) =
      some ⟨⟨0x00#8, 0x00#8, 0x00#8, 0xFD#8, 0xA4#8⟩, 0x8002#16, 5, [0xFF#8]⟩ := by decide +kernel

theorem test_V43_12_inc :
    after [0x0305]
      (start [(0x8000, 0xFE#8), (0x8001, 0x00#8), (0x8002, 0x03#8), (0x0305, 0x7F#8)] 0x8000#16 ⟨0x00#8, 0x05#8, 0x00#8, 0xFD#8, 0x24#8⟩) =
      some ⟨⟨0x00#8, 0x05#8, 0x00#8, 0xFD#8, 0xA4#8⟩, 0x8003#16, 7, [0x80#8]⟩ := by decide +kernel

theorem test_V43_13_inx :
    after []
      (start [(0x8000, 0xE8#8)] 0x8000#16 ⟨0x00#8, 0xFF#8, 0x00#8, 0xFD#8, 0x24#8⟩) =
      some ⟨⟨0x00#8, 0x00#8, 0x00#8, 0xFD#8, 0x26#8⟩, 0x8001#16, 2, []⟩ := by decide +kernel

theorem test_V43_14_dex :
    after []
      (start [(0x8000, 0xCA#8)] 0x8000#16 ⟨0x00#8, 0x00#8, 0x00#8, 0xFD#8, 0x24#8⟩) =
      some ⟨⟨0x00#8, 0xFF#8, 0x00#8, 0xFD#8, 0xA4#8⟩, 0x8001#16, 2, []⟩ := by decide +kernel

theorem test_V43_15_iny :
    after []
      (start [(0x8000, 0xC8#8)] 0x8000#16 ⟨0x00#8, 0x00#8, 0x7F#8, 0xFD#8, 0x24#8⟩) =
      some ⟨⟨0x00#8, 0x00#8, 0x80#8, 0xFD#8, 0xA4#8⟩, 0x8001#16, 2, []⟩ := by decide +kernel

theorem test_V43_16_dey :
    after []
      (start [(0x8000, 0x88#8)] 0x8000#16 ⟨0x00#8, 0x00#8, 0x01#8, 0xFD#8, 0x24#8⟩) =
      some ⟨⟨0x00#8, 0x00#8, 0x00#8, 0xFD#8, 0x26#8⟩, 0x8001#16, 2, []⟩ := by decide +kernel

theorem test_V44_1_jmp :
    after []
      (start [(0x8000, 0x4C#8), (0x8001, 0x34#8), (0x8002, 0x12#8)] 0x8000#16 ⟨0x00#8, 0x00#8, 0x00#8, 0xFD#8, 0x24#8⟩) =
      some ⟨⟨0x00#8, 0x00#8, 0x00#8, 0xFD#8, 0x24#8⟩, 0x1234#16, 3, []⟩ := by decide +kernel

theorem test_V44_3_jmp :
    after []
      (start [(0x8000, 0x6C#8), (0x8001, 0xFF#8), (0x8002, 0x02#8), (0x0200, 0x56#8), (0x02FF, 0x78#8), (0x0300, 0x99#8)] 0x8000#16 ⟨0x00#8, 0x00#8, 0x00#8, 0xFD#8, 0x24#8⟩) =
      some ⟨⟨0x00#8, 0x00#8, 0x00#8, 0xFD#8, 0x24#8⟩, 0x5678#16, 5, []⟩ := by decide +kernel

theorem test_V44_4_jsr :
    after [0x01FD, 0x01FC]
      (start [(0x8000, 0x20#8), (0x8001, 0x00#8), (0x8002, 0x90#8)] 0x8000#16 ⟨0x00#8, 0x00#8, 0x00#8, 0xFD#8, 0x24#8⟩) =
      some ⟨⟨0x00#8, 0x00#8, 0x00#8, 0xFB#8, 0x24#8⟩, 0x9000#16, 6, [0x80#8, 0x02#8]⟩ := by decide +kernel

theorem test_V44_5_rts :
    after []
      (start [(0x8000, 0x60#8), (0x01FC, 0x02#8), (0x01FD, 0x80#8)] 0x8000#16 ⟨0x00#8, 0x00#8, 0x00#8, 0xFB#8, 0x24#8⟩) =
      some ⟨⟨0x00#8, 0x00#8, 0x00#8, 0xFD#8, 0x24#8⟩, 0x8003#16, 6, []⟩ := by decide +kernel

/-- R502 and R209: the stack of an interrupt entry at 0x1234, S already moved past the status byte. RTS returns to PC + 1,
leaves the status byte where it is and pulls no P. -/
theorem test_rts_past_stacked_status :
    after [0x01FB]
      (start [(0x8000, 0x60#8), (0x01FB, 0xA1#8), (0x01FC, 0x34#8), (0x01FD, 0x12#8)] 0x8000#16 ⟨0x00#8, 0x00#8, 0x00#8, 0xFB#8, 0x24#8⟩) =
      some ⟨⟨0x00#8, 0x00#8, 0x00#8, 0xFD#8, 0x24#8⟩, 0x1235#16, 6, [0xA1#8]⟩ := by decide +kernel

theorem test_V44_6_rti :
    after []
      (start [(0x8000, 0x40#8), (0x01FB, 0xD3#8), (0x01FC, 0x34#8), (0x01FD, 0x12#8)] 0x8000#16 ⟨0x00#8, 0x00#8, 0x00#8, 0xFA#8, 0x24#8⟩) =
      some ⟨⟨0x00#8, 0x00#8, 0x00#8, 0xFD#8, 0xE3#8⟩, 0x1234#16, 6, []⟩ := by decide +kernel

theorem test_V44_7_brk :
    after [0x01FD, 0x01FC, 0x01FB]
      (start [(0x8000, 0x00#8), (0x8001, 0xFF#8), (0xFFFF, 0xA0#8)] 0x8000#16 ⟨0x00#8, 0x00#8, 0x00#8, 0xFD#8, 0x20#8⟩) =
      some ⟨⟨0x00#8, 0x00#8, 0x00#8, 0xFA#8, 0x24#8⟩, 0xA000#16, 7, [0x80#8, 0x02#8, 0x30#8]⟩ := by decide +kernel

theorem test_V44_10_bne :
    after []
      (start [(0x8000, 0xD0#8), (0x8001, 0xF0#8)] 0x8000#16 ⟨0x00#8, 0x00#8, 0x00#8, 0xFD#8, 0x24#8⟩) =
      some ⟨⟨0x00#8, 0x00#8, 0x00#8, 0xFD#8, 0x24#8⟩, 0x7FF2#16, 4, []⟩ := by decide +kernel

theorem test_V44_11_beq :
    after []
      (start [(0x80F0, 0xF0#8), (0x80F1, 0x7F#8)] 0x80F0#16 ⟨0x00#8, 0x00#8, 0x00#8, 0xFD#8, 0x26#8⟩) =
      some ⟨⟨0x00#8, 0x00#8, 0x00#8, 0xFD#8, 0x26#8⟩, 0x8171#16, 4, []⟩ := by decide +kernel

theorem test_V44_12_bcc :
    after []
      (start [(0x8000, 0x90#8), (0x8001, 0x00#8)] 0x8000#16 ⟨0x00#8, 0x00#8, 0x00#8, 0xFD#8, 0x24#8⟩) =
      some ⟨⟨0x00#8, 0x00#8, 0x00#8, 0xFD#8, 0x24#8⟩, 0x8002#16, 3, []⟩ := by decide +kernel

theorem test_V44_13_bcs :
    after []
      (start [(0x8000, 0xB0#8), (0x8001, 0x02#8)] 0x8000#16 ⟨0x00#8, 0x00#8, 0x00#8, 0xFD#8, 0x24#8⟩) =
      some ⟨⟨0x00#8, 0x00#8, 0x00#8, 0xFD#8, 0x24#8⟩, 0x8002#16, 2, []⟩ := by decide +kernel

theorem test_V44_14_bmi :
    after []
      (start [(0x8000, 0x30#8), (0x8001, 0xFE#8)] 0x8000#16 ⟨0x00#8, 0x00#8, 0x00#8, 0xFD#8, 0xA4#8⟩) =
      some ⟨⟨0x00#8, 0x00#8, 0x00#8, 0xFD#8, 0xA4#8⟩, 0x8000#16, 3, []⟩ := by decide +kernel

theorem test_V44_15_bpl :
    after []
      (start [(0x80FD, 0x10#8), (0x80FE, 0x01#8)] 0x80FD#16 ⟨0x00#8, 0x00#8, 0x00#8, 0xFD#8, 0x24#8⟩) =
      some ⟨⟨0x00#8, 0x00#8, 0x00#8, 0xFD#8, 0x24#8⟩, 0x8100#16, 4, []⟩ := by decide +kernel

theorem test_V44_16_bvs :
    after []
      (start [(0x8000, 0x70#8), (0x8001, 0x05#8)] 0x8000#16 ⟨0x00#8, 0x00#8, 0x00#8, 0xFD#8, 0x64#8⟩) =
      some ⟨⟨0x00#8, 0x00#8, 0x00#8, 0xFD#8, 0x64#8⟩, 0x8007#16, 3, []⟩ := by decide +kernel

theorem test_V44_17_bvc :
    after []
      (start [(0x8000, 0x50#8), (0x8001, 0x05#8)] 0x8000#16 ⟨0x00#8, 0x00#8, 0x00#8, 0xFD#8, 0x64#8⟩) =
      some ⟨⟨0x00#8, 0x00#8, 0x00#8, 0xFD#8, 0x64#8⟩, 0x8002#16, 2, []⟩ := by decide +kernel

theorem test_V45_1_clc :
    after []
      (start [(0x8000, 0x18#8)] 0x8000#16 ⟨0x00#8, 0x00#8, 0x00#8, 0xFD#8, 0xFF#8⟩) =
      some ⟨⟨0x00#8, 0x00#8, 0x00#8, 0xFD#8, 0xFE#8⟩, 0x8001#16, 2, []⟩ := by decide +kernel

theorem test_V45_2_sec :
    after []
      (start [(0x8000, 0x38#8)] 0x8000#16 ⟨0x00#8, 0x00#8, 0x00#8, 0xFD#8, 0x20#8⟩) =
      some ⟨⟨0x00#8, 0x00#8, 0x00#8, 0xFD#8, 0x21#8⟩, 0x8001#16, 2, []⟩ := by decide +kernel

theorem test_V45_3_cli :
    after []
      (start [(0x8000, 0x58#8)] 0x8000#16 ⟨0x00#8, 0x00#8, 0x00#8, 0xFD#8, 0x24#8⟩) =
      some ⟨⟨0x00#8, 0x00#8, 0x00#8, 0xFD#8, 0x20#8⟩, 0x8001#16, 2, []⟩ := by decide +kernel

theorem test_V45_4_sei :
    after []
      (start [(0x8000, 0x78#8)] 0x8000#16 ⟨0x00#8, 0x00#8, 0x00#8, 0xFD#8, 0x20#8⟩) =
      some ⟨⟨0x00#8, 0x00#8, 0x00#8, 0xFD#8, 0x24#8⟩, 0x8001#16, 2, []⟩ := by decide +kernel

theorem test_V45_5_clv :
    after []
      (start [(0x8000, 0xB8#8)] 0x8000#16 ⟨0x00#8, 0x00#8, 0x00#8, 0xFD#8, 0x64#8⟩) =
      some ⟨⟨0x00#8, 0x00#8, 0x00#8, 0xFD#8, 0x24#8⟩, 0x8001#16, 2, []⟩ := by decide +kernel

theorem test_V45_6_cld :
    after []
      (start [(0x8000, 0xD8#8)] 0x8000#16 ⟨0x00#8, 0x00#8, 0x00#8, 0xFD#8, 0x2C#8⟩) =
      some ⟨⟨0x00#8, 0x00#8, 0x00#8, 0xFD#8, 0x24#8⟩, 0x8001#16, 2, []⟩ := by decide +kernel

theorem test_V45_7_sed :
    after []
      (start [(0x8000, 0xF8#8)] 0x8000#16 ⟨0x00#8, 0x00#8, 0x00#8, 0xFD#8, 0x24#8⟩) =
      some ⟨⟨0x00#8, 0x00#8, 0x00#8, 0xFD#8, 0x2C#8⟩, 0x8001#16, 2, []⟩ := by decide +kernel

theorem test_V45_8_nop :
    after []
      (start [(0x8000, 0xEA#8)] 0x8000#16 ⟨0x00#8, 0x00#8, 0x00#8, 0xFD#8, 0xA5#8⟩) =
      some ⟨⟨0x00#8, 0x00#8, 0x00#8, 0xFD#8, 0xA5#8⟩, 0x8001#16, 2, []⟩ := by decide +kernel

theorem test_V46_1_slo :
    after [0x0010]
      (start [(0x8000, 0x07#8), (0x8001, 0x10#8), (0x0010, 0x81#8)] 0x8000#16 ⟨0x01#8, 0x00#8, 0x00#8, 0xFD#8, 0x24#8⟩) =
      some ⟨⟨0x03#8, 0x00#8, 0x00#8, 0xFD#8, 0x25#8⟩, 0x8002#16, 5, [0x02#8]⟩ := by decide +kernel

theorem test_V46_2_rla :
    after [0x0010]
      (start [(0x8000, 0x27#8), (0x8001, 0x10#8), (0x0010, 0x40#8)] 0x8000#16 ⟨0xFF#8, 0x00#8, 0x00#8, 0xFD#8, 0x25#8⟩) =
      some ⟨⟨0x81#8, 0x00#8, 0x00#8, 0xFD#8, 0xA4#8⟩, 0x8002#16, 5, [0x81#8]⟩ := by decide +kernel

theorem test_V46_3_sre :
    after [0x0010]
      (start [(0x8000, 0x47#8), (0x8001, 0x10#8), (0x0010, 0x03#8)] 0x8000#16 ⟨0xFF#8, 0x00#8, 0x00#8, 0xFD#8, 0x24#8⟩) =
      some ⟨⟨0xFE#8, 0x00#8, 0x00#8, 0xFD#8, 0xA5#8⟩, 0x8002#16, 5, [0x01#8]⟩ := by decide +kernel

theorem test_V46_4_rra :
    after [0x0010]
      (start [(0x8000, 0x67#8), (0x8001, 0x10#8), (0x0010, 0x03#8)] 0x8000#16 ⟨0x10#8, 0x00#8, 0x00#8, 0xFD#8, 0x24#8⟩) =
      some ⟨⟨0x12#8, 0x00#8, 0x00#8, 0xFD#8, 0x24#8⟩, 0x8002#16, 5, [0x01#8]⟩ := by decide +kernel

theorem test_V46_5_sax :
    after [0x0010]
      (start [(0x8000, 0x87#8), (0x8001, 0x10#8)] 0x8000#16 ⟨0xF0#8, 0x3C#8, 0x00#8, 0xFD#8, 0x24#8⟩) =
      some ⟨⟨0xF0#8, 0x3C#8, 0x00#8, 0xFD#8, 0x24#8⟩, 0x8002#16, 3, [0x30#8]⟩ := by decide +kernel

theorem test_V46_6_lax :
    after []
      (start [(0x8000, 0xA7#8), (0x8001, 0x10#8), (0x0010, 0x80#8)] 0x8000#16 ⟨0x00#8, 0x00#8, 0x00#8, 0xFD#8, 0x24#8⟩) =
      some ⟨⟨0x80#8, 0x80#8, 0x00#8, 0xFD#8, 0xA4#8⟩, 0x8002#16, 3, []⟩ := by decide +kernel

theorem test_V46_8_isc :
    after [0x0010]
      (start [(0x8000, 0xE7#8), (0x8001, 0x10#8), (0x0010, 0x0F#8)] 0x8000#16 ⟨0x10#8, 0x00#8, 0x00#8, 0xFD#8, 0x25#8⟩) =
      some ⟨⟨0x00#8, 0x00#8, 0x00#8, 0xFD#8, 0x27#8⟩, 0x8002#16, 5, [0x10#8]⟩ := by decide +kernel

theorem test_V46_9_slo :
    after [0x0301]
      (start [(0x8000, 0x13#8), (0x8001, 0x80#8), (0x0080, 0x00#8), (0x0081, 0x03#8), (0x0301, 0x40#8)] 0x8000#16 ⟨0x00#8, 0x00#8, 0x01#8, 0xFD#8, 0x24#8⟩) =
      some ⟨⟨0x80#8, 0x00#8, 0x01#8, 0xFD#8, 0xA4#8⟩, 0x8002#16, 8, [0x80#8]⟩ := by decide +kernel

theorem test_V46_10_dcp :
    after [0x0310]
      (start [(0x8000, 0xDB#8), (0x8001, 0xF0#8), (0x8002, 0x02#8), (0x0310, 0x01#8)] 0x8000#16 ⟨0x00#8, 0x00#8, 0x20#8, 0xFD#8, 0x24#8⟩) =
      some ⟨⟨0x00#8, 0x00#8, 0x20#8, 0xFD#8, 0x27#8⟩, 0x8003#16, 7, [0x00#8]⟩ := by decide +kernel

theorem test_V46_11_anc :
    after []
      (start [(0x8000, 0x0B#8), (0x8001, 0x80#8)] 0x8000#16 ⟨0xF0#8, 0x00#8, 0x00#8, 0xFD#8, 0x24#8⟩) =
      some ⟨⟨0x80#8, 0x00#8, 0x00#8, 0xFD#8, 0xA5#8⟩, 0x8002#16, 2, []⟩ := by decide +kernel

theorem test_V46_13_alr :
    after []
      (start [(0x8000, 0x4B#8), (0x8001, 0x03#8)] 0x8000#16 ⟨0xFF#8, 0x00#8, 0x00#8, 0xFD#8, 0x24#8⟩) =
      some ⟨⟨0x01#8, 0x00#8, 0x00#8, 0xFD#8, 0x25#8⟩, 0x8002#16, 2, []⟩ := by decide +kernel

theorem test_V46_15_arr :
    after []
      (start [(0x8000, 0x6B#8), (0x8001, 0xFF#8)] 0x8000#16 ⟨0x40#8, 0x00#8, 0x00#8, 0xFD#8, 0x24#8⟩) =
      some ⟨⟨0x20#8, 0x00#8, 0x00#8, 0xFD#8, 0x64#8⟩, 0x8002#16, 2, []⟩ := by decide +kernel

theorem test_V46_17_axs :
    after []
      (start [(0x8000, 0xCB#8), (0x8001, 0x40#8)] 0x8000#16 ⟨0xF0#8, 0x3F#8, 0x00#8, 0xFD#8, 0x24#8⟩) =
      some ⟨⟨0xF0#8, 0xF0#8, 0x00#8, 0xFD#8, 0xA4#8⟩, 0x8002#16, 2, []⟩ := by decide +kernel

theorem test_V46_18_sbc :
    after []
      (start [(0x8000, 0xEB#8), (0x8001, 0x01#8)] 0x8000#16 ⟨0x10#8, 0x00#8, 0x00#8, 0xFD#8, 0x25#8⟩) =
      some ⟨⟨0x0F#8, 0x00#8, 0x00#8, 0xFD#8, 0x25#8⟩, 0x8002#16, 2, []⟩ := by decide +kernel

theorem test_V46_20_ane :
    after []
      (withConstants 0xEE#8 0x00#8 (start [(0x8000, 0x8B#8), (0x8001, 0x0F#8)] 0x8000#16 ⟨0x00#8, 0xFF#8, 0x00#8, 0xFD#8, 0x24#8⟩)) =
      some ⟨⟨0x0E#8, 0xFF#8, 0x00#8, 0xFD#8, 0x24#8⟩, 0x8002#16, 2, []⟩ := by decide +kernel

theorem test_V46_22_lxa :
    after []
      (withConstants 0xFF#8 0x00#8 (start [(0x8000, 0xAB#8), (0x8001, 0x5A#8)] 0x8000#16 ⟨0x00#8, 0x00#8, 0x00#8, 0xFD#8, 0x24#8⟩)) =
      some ⟨⟨0x00#8, 0x00#8, 0x00#8, 0xFD#8, 0x26#8⟩, 0x8002#16, 2, []⟩ := by decide +kernel

theorem test_V46_23_las :
    after []
      (start [(0x8000, 0xBB#8), (0x8001, 0x00#8), (0x8002, 0x02#8), (0x0201, 0x3C#8)] 0x8000#16 ⟨0x00#8, 0x00#8, 0x01#8, 0xF0#8, 0x24#8⟩) =
      some ⟨⟨0x30#8, 0x30#8, 0x01#8, 0x30#8, 0x24#8⟩, 0x8003#16, 4, []⟩ := by decide +kernel

theorem test_V46_25_shx :
    after [0x0110, 0x0310]
      (start [(0x8000, 0x9E#8), (0x8001, 0xF0#8), (0x8002, 0x02#8)] 0x8000#16 ⟨0x00#8, 0x01#8, 0x20#8, 0xFD#8, 0x24#8⟩) =
      some ⟨⟨0x00#8, 0x01#8, 0x20#8, 0xFD#8, 0x24#8⟩, 0x8003#16, 5, [0x01#8, 0x00#8]⟩ := by decide +kernel

theorem test_V46_26_shy :
    after [0x0605]
      (start [(0x8000, 0x9C#8), (0x8001, 0x00#8), (0x8002, 0x06#8)] 0x8000#16 ⟨0x00#8, 0x05#8, 0xFF#8, 0xFD#8, 0x24#8⟩) =
      some ⟨⟨0x00#8, 0x05#8, 0xFF#8, 0xFD#8, 0x24#8⟩, 0x8003#16, 5, [0x07#8]⟩ := by decide +kernel

theorem test_V46_27_sha :
    after [0x0201]
      (start [(0x8000, 0x9F#8), (0x8001, 0x00#8), (0x8002, 0x02#8)] 0x8000#16 ⟨0xF3#8, 0x3F#8, 0x01#8, 0xFD#8, 0x24#8⟩) =
      some ⟨⟨0xF3#8, 0x3F#8, 0x01#8, 0xFD#8, 0x24#8⟩, 0x8003#16, 5, [0x03#8]⟩ := by decide +kernel

theorem test_V46_28_sha :
    after [0x0502]
      (start [(0x8000, 0x93#8), (0x8001, 0x80#8), (0x0080, 0x00#8), (0x0081, 0x05#8)] 0x8000#16 ⟨0xFF#8, 0x0F#8, 0x02#8, 0xFD#8, 0x24#8⟩) =
      some ⟨⟨0xFF#8, 0x0F#8, 0x02#8, 0xFD#8, 0x24#8⟩, 0x8002#16, 6, [0x06#8]⟩ := by decide +kernel

theorem test_V46_29_shs :
    after [0x0201]
      (start [(0x8000, 0x9B#8), (0x8001, 0x00#8), (0x8002, 0x02#8)] 0x8000#16 ⟨0xF3#8, 0x3F#8, 0x01#8, 0xFD#8, 0x24#8⟩) =
      some ⟨⟨0xF3#8, 0x3F#8, 0x01#8, 0x33#8, 0x24#8⟩, 0x8003#16, 5, [0x03#8]⟩ := by decide +kernel

theorem test_V46_31_nop :
    after []
      (start [(0x8000, 0x04#8), (0x8001, 0x10#8)] 0x8000#16 ⟨0x00#8, 0x00#8, 0x00#8, 0xFD#8, 0x24#8⟩) =
      some ⟨⟨0x00#8, 0x00#8, 0x00#8, 0xFD#8, 0x24#8⟩, 0x8002#16, 3, []⟩ := by decide +kernel

theorem test_V46_32_nop :
    after []
      (start [(0x8000, 0x14#8), (0x8001, 0x10#8)] 0x8000#16 ⟨0x00#8, 0x05#8, 0x00#8, 0xFD#8, 0x24#8⟩) =
      some ⟨⟨0x00#8, 0x05#8, 0x00#8, 0xFD#8, 0x24#8⟩, 0x8002#16, 4, []⟩ := by decide +kernel

theorem test_V46_33_nop :
    after []
      (start [(0x8000, 0x80#8), (0x8001, 0x10#8)] 0x8000#16 ⟨0x00#8, 0x00#8, 0x00#8, 0xFD#8, 0x24#8⟩) =
      some ⟨⟨0x00#8, 0x00#8, 0x00#8, 0xFD#8, 0x24#8⟩, 0x8002#16, 2, []⟩ := by decide +kernel

theorem test_V46_34_nop :
    after []
      (start [(0x8000, 0x0C#8), (0x8001, 0x02#8), (0x8002, 0x20#8)] 0x8000#16 ⟨0x00#8, 0x00#8, 0x00#8, 0xFD#8, 0x24#8⟩) =
      some ⟨⟨0x00#8, 0x00#8, 0x00#8, 0xFD#8, 0x24#8⟩, 0x8003#16, 4, []⟩ := by decide +kernel

theorem test_V46_35_nop :
    after []
      (start [(0x8000, 0x1C#8), (0x8001, 0xF0#8), (0x8002, 0x02#8)] 0x8000#16 ⟨0x00#8, 0x20#8, 0x00#8, 0xFD#8, 0x24#8⟩) =
      some ⟨⟨0x00#8, 0x20#8, 0x00#8, 0xFD#8, 0x24#8⟩, 0x8003#16, 5, []⟩ := by decide +kernel

theorem test_V46_36_nop :
    after []
      (start [(0x8000, 0x1A#8)] 0x8000#16 ⟨0x00#8, 0x00#8, 0x00#8, 0xFD#8, 0x24#8⟩) =
      some ⟨⟨0x00#8, 0x00#8, 0x00#8, 0xFD#8, 0x24#8⟩, 0x8001#16, 2, []⟩ := by decide +kernel

/-! ### Interrupts (95_test_vectors.md V60) -/

/-- The line of the frame IRQ held asserted. -/
def lineHigh (s : State) : State := { s with dev := { s.dev with apu := { s.dev.apu with frameIrq := true } } }

/-- The vectors of the conventions: NMI 0x9000, RESET 0x8000, IRQ 0xA000. -/
def vectors : List (Nat × Byte) := [(0xFFFB, 0x90#8), (0xFFFD, 0x80#8), (0xFFFF, 0xA0#8)]

/-- An NMI request or the IRQ latch set by hand. -/
def pending (nmi irq : Bool) (s : State) : State :=
  { s with cpu := { s.cpu with irqLatch := irq }, dev := { s.dev with nmiRequest := nmi } }

theorem test_V60_1_irq :
    after [0x01FD, 0x01FC, 0x01FB]
      (pending false true (start ((0x8000, 0xEA#8) :: vectors) 0x8000#16 ⟨0#8, 0#8, 0#8, 0xFD#8, 0x20#8⟩)) =
      some ⟨⟨0#8, 0#8, 0#8, 0xFA#8, 0x24#8⟩, 0xA000#16, 7, [0x80#8, 0x00#8, 0x20#8]⟩ := by decide +kernel

theorem test_V60_2_nmi :
    after [0x01FD, 0x01FC, 0x01FB]
      (pending true false (start ((0x8000, 0xEA#8) :: vectors) 0x8000#16 ⟨0#8, 0#8, 0#8, 0xFD#8, 0xA1#8⟩)) =
      some ⟨⟨0#8, 0#8, 0#8, 0xFA#8, 0xA5#8⟩, 0x9000#16, 7, [0x80#8, 0x00#8, 0xA1#8]⟩ := by decide +kernel

theorem test_V60_3_nmi_wins :
    after [] (pending true true (start ((0x8000, 0xEA#8) :: vectors) 0x8000#16 ⟨0#8, 0#8, 0#8, 0xFD#8, 0x20#8⟩)) =
      some ⟨⟨0#8, 0#8, 0#8, 0xFA#8, 0x24#8⟩, 0x9000#16, 7, []⟩ := by decide +kernel

/-- The IRQ latch after one step. -/
def latchAfter (s : State) : Option Bool :=
  match step s with
  | .next t => some t.cpu.irqLatch
  | _ => none

theorem test_V60_7_cli_latches : latchAfter (lineHigh (at8000 0x58#8 0xEA#8)) = some true := by decide +kernel

theorem test_V60_8_sei_does_not :
    latchAfter (lineHigh (start [(0x8000, 0x78#8)] 0x8000#16 ⟨0#8, 0#8, 0#8, 0xFD#8, 0x20#8⟩)) = some false := by
  decide +kernel

theorem test_V60_13_cli_penultimate :
    latchAfter { lineHigh (at8000 0x58#8 0xEA#8) with
      params := { State.reset.params with irqPollModel := .penultimateCycle } } = some false := by decide +kernel

/-! ### Stall and reset (V50, VR) -/

/-- V50: a stall of four cycles, served by the opcode fetch, comes on top of LDA's two. -/
theorem test_stall_is_served_by_read :
    after [] { at8000 0xA9#8 0x07#8 with dev := { State.reset.dev with stall := 4 } } =
      some ⟨⟨0x07#8, 0#8, 0#8, 0xFD#8, 0x24#8⟩, 0x8002#16, 6, []⟩ := by decide +kernel

/-- The state R530 constructs, with the conventions' vectors, after its first `Reset`. -/
def cold : State := (place vectors (State.powerOn Config.params Cart.blank [] .nrom)).coldReset

theorem test_VR_1_cold_reset :
    (cold.cpu.a, cold.cpu.s, cold.cpu.p, cold.cpu.pc, cold.dev.cycles) = (0#8, 0xFD#8, 0x24#8, 0x8000#16, 7) := by
  decide +kernel

theorem test_VR_1_position : (cold.dev.ppu.raster.scanline, cold.dev.ppu.raster.dot) = (0, 21) := by decide +kernel

/-- VR.2. -/
def warm : State := (start vectors 0x8123#16 ⟨0x12#8, 0x34#8, 0x56#8, 0x80#8, 0xE3#8⟩).warmReset

theorem test_VR_2_warm_reset :
    (warm.cpu.a, warm.cpu.x, warm.cpu.y, warm.cpu.s, warm.cpu.p, warm.cpu.pc) =
      (0x12#8, 0x34#8, 0x56#8, 0x7D#8, 0xE7#8, 0x8000#16) := by decide +kernel

/-! ### Devices (VP, VA, VM, VJ) -/

/-- Register writes to the PPU, without ticks. -/
def ppuWrites (l : List (Nat × Byte)) : Devices :=
  l.foldl (fun d x => ppuRegWrite State.reset.env x.1 x.2 d) State.reset.dev

theorem test_VP_1_scroll :
    (ppuWrites [(0, 0x03#8), (5, 0x7D#8), (5, 0x5E#8)]).ppu.scroll = ⟨0#15, 0x6D6F#15, 5#3, false⟩ := by decide +kernel

theorem test_VP_1_address :
    (ppuWrites [(0, 0x03#8), (5, 0x7D#8), (5, 0x5E#8), (6, 0x3D#8), (6, 0xF0#8)]).ppu.scroll =
      ⟨0x3DF0#15, 0x3DF0#15, 5#3, false⟩ := by decide +kernel

theorem test_VP_4_palette_index :
    [0x3F10#14, 0x3F14#14, 0x3F18#14, 0x3F1C#14, 0x3F04#14, 0x3F20#14, 0x3FF0#14].map palIndex = [0, 4, 8, 12, 4, 0, 0] := by
  decide

theorem test_VP_5_mirroring :
    [0x2000#14, 0x2400#14, 0x2800#14, 0x2C00#14].map (mirrorIndex .horizontal) = [0, 0, 0x400, 0x400] ∧
      [0x2000#14, 0x2400#14, 0x2800#14, 0x2C00#14].map (mirrorIndex .vertical) = [0, 0x400, 0, 0x400] := by decide

/-- A PPU with vblank set `age` dots ago and NMI enabled. -/
def vblankAged (age : Nat) : Devices :=
  { State.reset.dev with
    nmiRequest := true
    ppu := { State.reset.dev.ppu with vblank := true, vblAge := age, ctrl := 0x80#8, nmiLevel := true } }

theorem test_VP_7_status_race :
    [2, 3, 4].map (fun age =>
        let r := busRead State.reset.env 0x2002#16 (vblankAged age)
        (bitOf r.1 7, r.2.ppu.vblank, r.2.nmiRequest)) =
      [(false, true, true), (false, false, false), (true, false, true)] := by decide +kernel

theorem test_VA_5_sweep_target :
    let p := { Pulse.powerOn with timerPeriod := 0x100#11, sweepShift := 1#3, sweepNeg := true }
    (p.target true, p.target false) = (0x07F, 0x080) := by decide

theorem test_VA_7_lfsr :
    (({ Apu.powerOn.noise with lfsr := 0x0002#15 } : Noise).shiftLfsr,
      ({ Apu.powerOn.noise with lfsr := 0x0040#15, mode := true } : Noise).shiftLfsr) = (0x4001#15, 0x4020#15) := by
  decide

theorem test_VA_9_dmc_addresses :
    let m := { Apu.powerOn.dmc with addrReg := 0xFF#8, lenReg := 0xFF#8 }
    (m.restartSample.curAddr, m.restartSample.bytesLeft) = (0xFFC0#16, 0xFF1#12) := by decide

/-- Eight banks of 16 KB. -/
def cart128 : Cart := { Cart.blank with prgBanks := 8 }

theorem test_VM_2_uxrom :
    ((Mapper.uxrom 0#8).cpuWriteReg 0x8000#16 0x0B#8 0).cpuMap cart128 0x8000#16 = .rom 0x0C000 ∧
      (Mapper.uxrom 3#8).cpuMap cart128 0xC000#16 = .rom 0x1C000 := by decide

theorem test_VM_4_axrom :
    ((Mapper.axrom 0#8).cpuWriteReg 0x8000#16 0x13#8 0).cpuMap cart128 0xFFFC#16 = .rom 0x1FFFC := by decide

/-- MMC1 after five writes of one bit each, four cycles apart. -/
def serial (a : Word) (bits : List Byte) : Mmc1 :=
  (bits.foldl (fun (m : Mmc1 × Nat) b => (m.1.write a b m.2, m.2 + 4)) (Mmc1.powerOn, 100)).1

theorem test_VM_5_mmc1 :
    (serial 0xE000#16 [0#8, 1#8, 0#8, 0#8, 0#8]).prg = 2#5 ∧
      (serial 0x8000#16 [0#8, 1#8, 1#8, 1#8, 0#8]).control = 0x0E#5 := by decide

/-- MMC3 with `r[6]` = 5 and the given bank select. -/
def mmc3With (sel : Byte) : Mapper :=
  .mmc3 { Mmc3.powerOn .vertical with bankSelect := sel, r := [0#8, 0#8, 0#8, 0#8, 0#8, 0#8, 5#8, 0#8] }

theorem test_VM_6_mmc3 :
    ((mmc3With 0x06#8).cpuMap { cart128 with prgBanks := 16 } 0x8000#16,
      (mmc3With 0x46#8).cpuMap { cart128 with prgBanks := 16 } 0x8000#16,
      (mmc3With 0x46#8).cpuMap { cart128 with prgBanks := 16 } 0xC000#16) =
      (.rom 0x0A000, .rom 0x3C000, .rom 0x0A000) := by decide

theorem test_VM_8_mmc3_irq :
    let m := { Mmc3.powerOn .vertical with irqLatch := 2#8, irqReload := true, irqEnabled := true }
    [m.clockIrq, m.clockIrq.clockIrq, m.clockIrq.clockIrq.clockIrq].map (fun m => (m.irqCounter, m.irqPending)) =
      [(2#8, false), (1#8, false), (0#8, true)] := by decide

theorem test_VM_10_mmc2_latch :
    let m := { Mmc2.powerOn with chrFd0 := 2#5, chrFe0 := 5#5 }
    let c := { Cart.blank with chrBanks := 16 }
    (m.chrOffset c 0x0FD8, (m.latchAfterRead false 0x0FD8).chrOffset c 0) = (0x5FD8, 0x2000) := by decide

/-- R332's formulas by hand: 8x16 rows 3 flipped (12: second tile, line 4), 20 and -1 (of a stale `sec_oam`); 8x8 row 3
flipped (4) of tile 0x12 in the upper table. -/
theorem test_R332_sprite_rows :
    (spritePatAddr { Ppu.powerOn with ctrl := 0x20#8 } 0x00#8 0x80#8 3,
        spritePatAddr { Ppu.powerOn with ctrl := 0x20#8 } 0x00#8 0x00#8 20,
        spritePatAddr { Ppu.powerOn with ctrl := 0x20#8 } 0x13#8 0x00#8 (-1),
        spritePatAddr { Ppu.powerOn with ctrl := 0x08#8 } 0x12#8 0x80#8 3) =
      (0x0014#14, 0x0004#14, 0x1137#14, 0x1124#14) := by decide

theorem test_VM_12_load_refused :
    Mapper.ofId 6 .vertical = none ∧ (Mapper.ofId 71 .vertical).isSome = true := by decide

/-- A joypad after the strobe, `n` reads later. -/
def joyAfter (buttons : Byte) : Nat → Joypad
  | 0 => ((⟨buttons, 0#8, false⟩ : Joypad).write 1#8).write 0#8
  | n + 1 => ((joyAfter buttons n).read 0x40#8).2

theorem test_VJ_1_joypad :
    (List.range 10).map (fun n => ((joyAfter 0x09#8 n).read 0x40#8).1) =
      [0x41#8, 0x40#8, 0x40#8, 0x41#8, 0x40#8, 0x40#8, 0x40#8, 0x40#8, 0x41#8, 0x41#8] := by decide

/-! ### Witnesses of the statements' hypotheses -/

theorem witness_DecodeEncodeRoundTrip :
    Instr.wf (.lda (.mem .absoluteX)) = true ∧ Operand.fits (.word 0xFFFF#16) (.lda (.mem .absoluteX)) = true := by decide

theorem witness_EncodeDecodeRoundTrip : decode [0xA9#8, 0x05#8] = .ok ⟨.lda .immediate, .byte 0x05#8, []⟩ := rfl

theorem witness_StepRunsDecodedInstruction :
    let s := at8000 0xA9#8 0x05#8
    s.cpu.jammed = false ∧ s.dev.nmiRequest = false ∧ s.cpu.irqLatch = false ∧
      (s.beginStep.fetch).1 = 0xA9#8 ∧ decode (0xA9#8 :: [0x05#8]) = .ok ⟨.lda .immediate, .byte 0x05#8, []⟩ ∧
      ∃ t, exec (.lda .immediate) (s.beginStep.fetch).2 = .next t :=
  ⟨rfl, rfl, rfl, by decide +kernel, rfl, exists_of_isNext (by decide +kernel)⟩

/-- A jammed CPU. -/
def jammedState : State := { State.reset with cpu := { State.reset.cpu with jammed := true } }

theorem witness_EveryStepAdvances :
    ({ State.reset with cart := { Cart.blank with chrIsRam := false } } : State).cart.chrIsRam = false := rfl

theorem witness_StepEventPriority_jammed : jammedState.cpu.jammed = true := rfl

theorem witness_StepEventPriority_nmi :
    (pending true true State.reset).cpu.jammed = false ∧ (pending true true State.reset).dev.nmiRequest = true := ⟨rfl, rfl⟩

theorem witness_StepEventPriority_irq :
    (pending false true State.reset).cpu.jammed = false ∧ (pending false true State.reset).dev.nmiRequest = false ∧
      (pending false true State.reset).cpu.irqLatch = true := ⟨rfl, rfl, rfl⟩

theorem witness_IrqLatchAtEndOfStep :
    State.reset.params.irqPollModel = .endOfStep ∧ State.reset.cpu.jammed = false ∧ ∃ t, step State.reset = .next t :=
  ⟨rfl, rfl, exists_of_isNext (by decide +kernel)⟩

theorem witness_ReadCycle : Stable 0x1FFF#16 ∧ Stable 0x6000#16 ∧ ¬Stable 0x2000#16 ∧ ¬Stable 0x5FFF#16 := by
  unfold Stable
  decide

theorem reset_memoryOk : State.reset.MemoryOk := ⟨rfl, rfl⟩

theorem reset_dmcIdle : State.reset.DmcIdle := ⟨rfl, rfl⟩

theorem reset_statusOk : State.reset.StatusOk := rfl

/-- A write to the last RAM address stores to the last RAM byte. -/
theorem reset_writes_ram (s : State) : s.WritesTo 0x1FFF#16 ⟨.ram, 0x7FF⟩ := rfl

theorem witness_WriteCycle :
    State.reset.MemoryOk ∧ (0x1FFF#16 : Word) ≠ 0x4014#16 ∧ State.reset.WritesTo 0x1FFF#16 ⟨.ram, 0x7FF⟩ ∧
      ¬State.reset.WritesTo 0x1FFF#16 ⟨.ram, 0x7FE⟩ :=
  ⟨reset_memoryOk, by decide, rfl, fun h => absurd (Option.some.inj (α := Location) h) (by decide)⟩

/-- OAM DMA may store to every OAM byte. -/
theorem witness_WriteCycle_dma : State.reset.WritesTo 0x4014#16 ⟨.oam, 255⟩ := rfl

theorem witness_RamMirrors :
    State.reset.MemoryOk ∧ (0x0000#16 : Word).toNat < 0x2000 ∧ (0x1FFF#16 : Word).toNat < 0x2000 ∧
      (0x07FF#16 : Word).toNat % 0x800 = (0x1FFF#16 : Word).toNat % 0x800 ∧
      (0x0000#16 : Word).toNat % 0x800 ≠ (0x1FFF#16 : Word).toNat % 0x800 := ⟨reset_memoryOk, by decide⟩

theorem witness_EffectiveAddresses :
    Stable State.reset.cpu.pc ∧ Stable (State.reset.cpu.pc + 1#16) ∧ Stable (0x1FFE#16 + 1#16) := by
  unfold Stable
  decide

theorem witness_ReadOperand :
    Stable (State.reset.effectiveAddr .absolute).1 ∧ Stable (at8000 0xFF#8 0x1F#8 |>.effectiveAddr .absolute).1 ∧
      Stable State.reset.cpu.pc := by
  unfold Stable
  decide +kernel

theorem witness_PageCrossing :
    pageCrossed 0x02FF#16 1#8 = true ∧ pageCrossed 0x02FF#16 0#8 = false ∧ pageCrossed 0xFFFF#16 0xFF#8 = true := by decide

theorem witness_StalledReadCycles :
    ({ State.reset with dev := { State.reset.dev with stall := 4 } } : State).dev.apu.dmc.bytesLeft = 0#12 := rfl

/-- A DMC with an empty buffer and the given bytes left. -/
def dmcWith (n : BitVec 12) (loop : Bool) (cur : Word) : Devices :=
  { State.reset.dev with
    apu := { State.reset.dev.apu with
      dmc := { State.reset.dev.apu.dmc with bytesLeft := n, loop := loop, irqEn := true, curAddr := cur } } }

theorem witness_DmcFetch :
    State.reset.dev.apu.dmc.bytesLeft = 0#12 ∧ (dmcWith 1#12 true 0xFFFF#16).apu.dmc.bufferFull = false ∧
      (dmcWith 1#12 true 0xFFFF#16).apu.dmc.bytesLeft = 1#12 ∧ (dmcWith 1#12 true 0xFFFF#16).apu.dmc.loop = true ∧
      (dmcWith 1#12 false 0xFFFF#16).apu.dmc.loop = false ∧ (dmcWith 1#12 false 0xFFFF#16).apu.dmc.irqEn = true ∧
      (dmcWith 2#12 false 0xFFFF#16).apu.dmc.bytesLeft ≠ 1#12 ∧ (dmcWith 2#12 false 0xFFFF#16).apu.dmc.bytesLeft ≠ 0#12 := by
  decide +kernel

/-- With another cycle count. -/
def evenCycle : State := { State.reset with dev := { State.reset.dev with cycles := 8 } }

theorem witness_OamDmaCycles :
    State.reset.DmcIdle ∧ (State.reset.dev.cycles + 1) % 2 ≠ 1 ∧ evenCycle.DmcIdle ∧ (evenCycle.dev.cycles + 1) % 2 = 1 :=
  ⟨reset_dmcIdle, by decide, ⟨rfl, rfl⟩, rfl⟩

theorem witness_OamDmaCopiesPage :
    State.reset.MemoryOk ∧ (0x1F#8 : Byte).toNat < 0x20 ∧ State.reset.dev.ppu.rendering = false ∧ 255 < 256 :=
  ⟨reset_memoryOk, by decide, rfl, by decide⟩

/-- The premise of every `Takes`, and the only one of Loads, UnofficialLoads, Pulls and ReturnFromInterrupt. -/
theorem witness_Takes : State.reset.DmcIdle := reset_dmcIdle

theorem witness_Stores (m : AddrMode) (s : State) :
    (Instr.sax m, s.cpu.a &&& s.cpu.x) ∈
      [(Instr.sta m, s.cpu.a), (.stx m, s.cpu.x), (.sty m, s.cpu.y), (.sax m, s.cpu.a &&& s.cpu.x)] := by simp

/-- A store whose address lies in RAM: the hypotheses of the stored byte. -/
theorem witness_Stores_byte :
    (at8000 0x10#8 0x00#8).MemoryOk ∧ ((at8000 0x10#8 0x00#8).effectiveAddr .zeropage).1 ≠ 0x4014#16 ∧
      ((at8000 0x10#8 0x00#8).effectiveAddr .zeropage).2.WritesTo
        ((at8000 0x10#8 0x00#8).effectiveAddr .zeropage).1 ⟨.ram, 0x10⟩ := by
  refine ⟨⟨by decide +kernel, rfl⟩, by decide +kernel, ?_⟩
  have h : ((at8000 0x10#8 0x00#8).effectiveAddr .zeropage).1 = 0x0010#16 := by decide +kernel
  rw [h]
  rfl

/-- A store to 0x4014, with the DMC idle: the hypotheses of the OAM DMA clause. -/
theorem witness_Stores_dma :
    ((at8000 0x14#8 0x40#8).effectiveAddr .absolute).1 = 0x4014#16 ∧ (at8000 0x14#8 0x40#8).DmcIdle :=
  ⟨by decide +kernel, ⟨rfl, rfl⟩⟩

theorem witness_Transfers (c : Cpu) :
    (Instr.tsx, c.s, fun b => { c with x := b }) ∈
      [(Instr.tax, c.a, fun b => { c with x := b }), (.tay, c.a, fun b => { c with y := b }),
        (.txa, c.x, fun b => { c with a := b }), (.tya, c.y, fun b => { c with a := b }),
        (.tsx, c.s, fun b => { c with x := b })] := by simp

theorem witness_Pushes : State.reset.MemoryOk := reset_memoryOk

theorem witness_Logic (m : ReadMode) (s : State) :
    (Instr.eor m, s.cpu.a ^^^ (s.load m).1) ∈
      [(Instr.ora m, s.cpu.a ||| (s.load m).1), (.and m, s.cpu.a &&& (s.load m).1),
        (.eor m, s.cpu.a ^^^ (s.load m).1)] := by simp

theorem witness_ComparesAndBitTest (m : ReadMode) (s : State) :
    (Instr.cpy m, s.cpu.y) ∈ [(Instr.cmp m, s.cpu.a), (.cpx m, s.cpu.x), (.cpy m, s.cpu.y)] := by simp

theorem witness_AccumulatorShifts (s : State) :
    (Instr.ror .accumulator, rorSpec s.cpu.a (bitOf s.cpu.p flagC)) ∈
      [(Instr.asl .accumulator, aslSpec s.cpu.a), (.lsr .accumulator, lsrSpec s.cpu.a),
        (.rol .accumulator, rolSpec s.cpu.a (bitOf s.cpu.p flagC)),
        (.ror .accumulator, rorSpec s.cpu.a (bitOf s.cpu.p flagC))] := by simp

theorem witness_ReadModifyWriteFrame (m : AddrMode) :
    Instr.isc m ∈ [Instr.asl (.mem m), .lsr (.mem m), .rol (.mem m), .ror (.mem m), .inc m, .dec m, .slo m, .rla m,
      .sre m, .rra m, .dcp m, .isc m] := by simp

/-- A read-modify-write whose address lies in RAM; the other bytes are outside both writes. -/
theorem witness_ReadModifyWrite_byte (s : State) :
    ¬s.WritesTo 0x0010#16 ⟨.ram, 0x11⟩ ∧ s.WritesTo 0x0010#16 ⟨.ram, 0x10⟩ :=
  ⟨fun h => absurd (Option.some.inj (α := Location) h) (by decide), rfl⟩

/-- The hypotheses of the stored byte, for the statements of the memory read-modify-write instructions: an operand in RAM,
written from the state `w` after its read and dummy write. -/
def rmwState : State := at8000 0x10#8 0x00#8

theorem witness_MemoryShifts :
    let ea := rmwState.effectiveAddr .zeropage
    let v := (ea.2.read ea.1).1
    let w := (ea.2.read ea.1).2.write ea.1 v
    (Instr.lsr (.mem .zeropage), lsrSpec v) ∈
        [(Instr.asl (.mem .zeropage), aslSpec v), (.lsr (.mem .zeropage), lsrSpec v),
          (.rol (.mem .zeropage), rolSpec v (bitOf rmwState.cpu.p flagC)),
          (.ror (.mem .zeropage), rorSpec v (bitOf rmwState.cpu.p flagC))] ∧
      rmwState.MemoryOk ∧ ea.1 ≠ 0x4014#16 ∧ w.WritesTo ea.1 ⟨.ram, 0x10⟩ := by
  have h : (rmwState.effectiveAddr .zeropage).1 = 0x0010#16 := by decide +kernel
  refine ⟨by simp, ⟨by decide +kernel, rfl⟩, ?_, ?_⟩
  · rw [h]; decide
  · simp only [h]; rfl

theorem witness_IncrementDecrementMemory :
    let ea := rmwState.effectiveAddr .zeropage
    let v := (ea.2.read ea.1).1
    let w := (ea.2.read ea.1).2.write ea.1 v
    (Instr.dec .zeropage, v - 1#8) ∈ [(Instr.inc .zeropage, v + 1#8), (.dec .zeropage, v - 1#8)] ∧
      rmwState.MemoryOk ∧ ea.1 ≠ 0x4014#16 ∧ w.WritesTo ea.1 ⟨.ram, 0x10⟩ :=
  ⟨by simp, witness_MemoryShifts.2⟩

theorem witness_IncrementDecrementRegister (s : State) :
    (Instr.dey, s.cpu.x, s.cpu.y - 1#8, s.cpu.y - 1#8) ∈
      [(Instr.inx, s.cpu.x + 1#8, s.cpu.y, s.cpu.x + 1#8), (.iny, s.cpu.x, s.cpu.y + 1#8, s.cpu.y + 1#8),
        (.dex, s.cpu.x - 1#8, s.cpu.y, s.cpu.x - 1#8), (.dey, s.cpu.x, s.cpu.y - 1#8, s.cpu.y - 1#8)] := by simp

theorem witness_UnofficialShiftAndLogic :
    let ea := rmwState.effectiveAddr .zeropage
    let v := (ea.2.read ea.1).1
    let w := (ea.2.read ea.1).2.write ea.1 v
    let rot := rolSpec v (bitOf rmwState.cpu.p flagC)
    (Instr.sre .zeropage, lsrSpec v, rmwState.cpu.a ^^^ (lsrSpec v).value) ∈
        [(Instr.slo .zeropage, aslSpec v, rmwState.cpu.a ||| (aslSpec v).value),
          (.rla .zeropage, rot, rmwState.cpu.a &&& rot.value),
          (.sre .zeropage, lsrSpec v, rmwState.cpu.a ^^^ (lsrSpec v).value)] ∧
      rmwState.MemoryOk ∧ ea.1 ≠ 0x4014#16 ∧ w.WritesTo ea.1 ⟨.ram, 0x10⟩ :=
  ⟨by simp, witness_MemoryShifts.2⟩

theorem witness_UnofficialModifyAndArithmetic :
    let ea := rmwState.effectiveAddr .zeropage
    let w := (ea.2.read ea.1).2.write ea.1 (ea.2.read ea.1).1
    rmwState.MemoryOk ∧ ea.1 ≠ 0x4014#16 ∧ w.WritesTo ea.1 ⟨.ram, 0x10⟩ := witness_MemoryShifts.2

theorem witness_Jumps :
    let p := (at8000 0xFF#8 0x1F#8).fetchWord.1
    p = 0x1FFF#16 ∧ Stable p ∧ Stable (cat (hi p) (lo p + 1#8)) := by
  have h : (at8000 0xFF#8 0x1F#8).fetchWord.1 = 0x1FFF#16 := by decide +kernel
  simp only [h]
  unfold Stable
  decide

theorem witness_Subroutines :
    State.reset.MemoryOk ∧ Stable State.reset.cpu.pc ∧ Stable (State.reset.cpu.pc + 1#16) := by
  refine ⟨reset_memoryOk, ?_⟩
  unfold Stable
  decide

theorem witness_Break : State.reset.MemoryOk := reset_memoryOk

theorem witness_InterruptEntry : Interrupt.nmi ≠ .brk ∧ Interrupt.irq ≠ .brk ∧ State.reset.MemoryOk :=
  ⟨by decide, by decide, reset_memoryOk⟩

theorem witness_ReturnsRestore :
    State.reset.MemoryOk ∧ State.reset.StatusOk ∧ (∃ t, exec .jsr State.reset = .next t) ∧
      ∃ t, exec .brk State.reset = .next t :=
  ⟨reset_memoryOk, reset_statusOk, exists_of_isNext (by decide +kernel), exists_of_isNext (by decide +kernel)⟩

/-- Each of the eight branches is in the statement's list; a taken branch in the same page and into another page. -/
theorem witness_Branches :
    (Instr.beq, flagZ, true) ∈ [(Instr.bpl, flagN, false), (.bmi, flagN, true), (.bvc, flagV, false), (.bvs, flagV, true),
        (.bcc, flagC, false), (.bcs, flagC, true), (.bne, flagZ, false), (.beq, flagZ, true)] ∧
      bitOf (0x26#8 : Byte) flagZ = true ∧ bitOf (0x24#8 : Byte) flagZ ≠ true ∧
      hi (0x80FE#16 + 1#16) = hi 0x80F0#16 ∧ hi (0x80FF#16 + 1#16) ≠ hi 0x80FF#16 := by decide

theorem witness_FlagInstructions :
    (Instr.sed, flagD, true) ∈ [(Instr.clc, flagC, false), (.sec, flagC, true), (.cli, flagI, false), (.sei, flagI, true),
        (.clv, flagV, false), (.cld, flagD, false), (.sed, flagD, true)] := by decide

theorem witness_NoOperations (s : State) (op : Byte) :
    (Instr.nopAbsoluteX op, 2, 3 + s.crossPenalty .absoluteX) ∈
      [(Instr.nop, 0, 1), (.nopImplied op, 0, 1), (.nopImmediate op, 1, 1), (.nopZeropage op, 1, 2),
        (.nopZeropageX op, 1, 3), (.nopAbsolute, 2, 3), (.nopAbsoluteX op, 2, 3 + s.crossPenalty .absoluteX)] := by simp

theorem witness_UnofficialImmediates :
    (at8000 0x00#8 0x00#8).fetch.1 = 0#8 ∧ (withConstants 0x00#8 0xFF#8 State.reset).params.lxaConst = 0xFF#8 :=
  ⟨by decide +kernel, rfl⟩

/-- SHX $02F0,Y with Y = 0x20: across a page, into RAM. -/
def shState : State :=
  let s := at8000 0xF0#8 0x02#8
  { s with cpu := { s.cpu with x := 0x01#8, y := 0x20#8 } }

theorem witness_ShStores :
    let s := shState
    let ax := s.cpu.a &&& s.cpu.x
    let base := (s.indexBase .absoluteY).1
    (Instr.shx, AddrMode.absoluteY, s.cpu.x, s.cpu.s) ∈
        [(Instr.sha .absoluteY, AddrMode.absoluteY, ax, s.cpu.s),
          (.sha .indirectIndexed, .indirectIndexed, ax, s.cpu.s), (.shx, .absoluteY, s.cpu.x, s.cpu.s),
          (.shy, .absoluteX, s.cpu.y, s.cpu.s), (.shs, .absoluteY, ax, ax)] ∧
      s.MemoryOk ∧ (s.indexBase .absoluteY).2.dev.stall = 0 ∧
      0xFF < (lo base).toNat + (s.cpu.indexOf .absoluteY).toNat ∧
      cat (hi (base + zext s.cpu.y) &&& s.cpu.x) (lo (base + zext s.cpu.y)) = 0x0110#16 ∧
      ∀ w : State, w.WritesTo 0x0110#16 ⟨.ram, 0x110⟩ :=
  ⟨by simp, ⟨by decide +kernel, rfl⟩, by decide +kernel, by decide +kernel, by decide +kernel, fun _ => rfl⟩

theorem witness_JamLocksUp : jammedState.cpu.jammed = true := rfl

theorem reset_rasterOk : State.reset.RasterOk := by
  unfold State.RasterOk
  decide +kernel

theorem reset_apuOk : State.reset.ApuOk := by
  unfold State.ApuOk
  decide +kernel

theorem witness_StepKeeps :
    State.reset.StatusOk ∧ State.reset.MemoryOk ∧ State.reset.RasterOk ∧ State.reset.ApuOk ∧
      ∃ t, step State.reset = .next t :=
  ⟨reset_statusOk, reset_memoryOk, reset_rasterOk, reset_apuOk, exists_of_isNext (by decide +kernel)⟩

theorem witness_StatusRead : (vblankAged 3).ppu.vblank = true ∧ (vblankAged 3).ppu.vblAge = 3 := ⟨rfl, rfl⟩

theorem witness_ScrollWrites : State.reset.dev.ppu.scroll.w = false := rfl

theorem witness_NmiEdge :
    State.reset.dev.ppu.nmiLevel = (State.reset.dev.ppu.vblank && bitOf State.reset.dev.ppu.ctrl 7) ∧
      (vblankAged 3).ppu.nmiLevel = ((vblankAged 3).ppu.vblank && bitOf (vblankAged 3).ppu.ctrl 7) := by decide +kernel

theorem witness_FrameIrq :
    ({ Apu.powerOn with seq := ⟨false, false, 29830⟩ } : Apu).seq.cycle = 29830 ∧
      ({ Apu.powerOn with seq := ⟨true, false, 37281⟩ } : Apu).seq.mode5 = true := ⟨rfl, rfl⟩

/-- The last write three cycles ago, then five writes two cycles apart, the closest the filter lets through. -/
theorem witness_Mmc1SerialLoad :
    let m : Mmc1 := { Mmc1.powerOn with lastWriteCycle := some 5 }
    m.count = 0 ∧ (∀ l, m.lastWriteCycle = some l → l + 1 < 7) ∧ 7 + 1 < 9 ∧ 9 + 1 < 11 ∧ 11 + 1 < 13 ∧ 13 + 1 < 15 ∧
      ∀ v ∈ [0x7F#8, 0x00#8, 0x01#8, 0x7E#8, 0x01#8], bitOf v 7 = false := by
  refine ⟨rfl, fun l h => ?_, by decide⟩
  have h' : 5 = l := Option.some.inj h
  omega

theorem witness_BankArithmetic : 0 < 0x4000 ∧ 0 < 0x20000 ∧ 0x4000 ≤ 0x20000 ∧ 1 ≤ 8 ∧ 8 ≤ 0x20000 / 0x4000 := by decide

end Sys2Proof.Tests
end

section
/-! What a step can do, said once: a step is a run of acts (a tick, a bus read, a bus write, the wires between bus and
CPU, the CPU's own registers), so a property that every act keeps is kept by every step. -/

namespace Sys2Proof.Machine

/-! ### The flags U and B (10_state.md R23) -/

/-- B is clear and U set: the stored form of the status byte. -/
def StatusForm (p : Byte) : Prop := bitOf p flagB = false ∧ bitOf p flagU = true

theorem statusForm_iff_mask (p : Byte) : StatusForm p ↔ p &&& 0x30#8 = 0x20#8 := by
  unfold StatusForm bitOf
  revert p
  decide

theorem statusOk_iff (s : State) : s.StatusOk ↔ StatusForm s.cpu.p := (statusForm_iff_mask s.cpu.p).symm

theorem statusForm_pulledStatus (b : Byte) : StatusForm (pulledStatus b) := by
  unfold StatusForm bitOf pulledStatus
  revert b
  decide

section StatusForm
variable {p : Byte} (h : StatusForm p)
include h

/-- The flags other than B and U may be set freely. -/
theorem StatusForm.setFlag {k : Nat} (hk : k < 8) (hB : flagB ≠ k) (hU : flagU ≠ k) (b : Bool) :
    StatusForm (setFlag k b p) := by
  obtain ⟨hb, hu⟩ := h
  constructor
  · rw [bitOf_setFlag k flagB hk (by decide), if_neg hB, hb]
  · rw [bitOf_setFlag k flagU hk (by decide), if_neg hU, hu]

theorem StatusForm.setC (b : Bool) : StatusForm (Machine.setFlag flagC b p) :=
  h.setFlag (by decide) (by decide) (by decide) b

theorem StatusForm.setZ (b : Bool) : StatusForm (Machine.setFlag flagZ b p) :=
  h.setFlag (by decide) (by decide) (by decide) b

theorem StatusForm.setI (b : Bool) : StatusForm (Machine.setFlag flagI b p) :=
  h.setFlag (by decide) (by decide) (by decide) b

theorem StatusForm.setD (b : Bool) : StatusForm (Machine.setFlag flagD b p) :=
  h.setFlag (by decide) (by decide) (by decide) b

theorem StatusForm.setV (b : Bool) : StatusForm (Machine.setFlag flagV b p) :=
  h.setFlag (by decide) (by decide) (by decide) b

theorem StatusForm.setN (b : Bool) : StatusForm (Machine.setFlag flagN b p) :=
  h.setFlag (by decide) (by decide) (by decide) b

theorem StatusForm.setNZ (v : Byte) : StatusForm (Machine.setNZ v p) := (h.setZ _).setN _

theorem StatusForm.compare (r m : Byte) : StatusForm (Machine.compare r m p) := ((h.setC _).setZ _).setN _

theorem StatusForm.bitTest (a m : Byte) : StatusForm (Machine.bitTest a m p) := ((h.setZ _).setN _).setV _

theorem StatusForm.adc (a m : Byte) : StatusForm (Machine.adc a m p).p := ((h.setC _).setV _).setNZ _

theorem StatusForm.asl (v : Byte) : StatusForm (Machine.asl v p).p := (h.setC _).setNZ _

theorem StatusForm.lsr (v : Byte) : StatusForm (Machine.lsr v p).p := (h.setC _).setNZ _

theorem StatusForm.rol (v : Byte) : StatusForm (Machine.rol v p).p := (h.setC _).setNZ _

theorem StatusForm.ror (v : Byte) : StatusForm (Machine.ror v p).p := (h.setC _).setNZ _

theorem StatusForm.anc (a m : Byte) : StatusForm (Machine.anc a m p).p := (h.setNZ _).setC _

theorem StatusForm.arr (a m : Byte) : StatusForm (Machine.arr a m p).p := ((h.setNZ _).setC _).setV _

theorem StatusForm.axs (a x m : Byte) : StatusForm (Machine.axs a x m p).p := (h.setC _).setNZ _

end StatusForm

/-! ### Acts and runs -/

/-- The acts a step is made of. `wires` writes the bus latches, the stall counter and the NMI request;
`cpu` writes the registers and the IRQ poll, and never takes the status byte out of its stored form. -/
inductive Act : State → State → Prop where
  | tick (s : State) : Act s s.tick
  | busRead (s : State) (a : Word) : Act s { s with dev := (Machine.busRead s.env a s.dev).2 }
  | busWrite (s : State) (a : Word) (v : Byte) : Act s (s.busWritePlain a v)
  | wires (s : State) (latch : Byte) (last : Word) (stall : Nat) (nmi : Bool) :
      Act s { s with dev :=
        { s.dev with dataLatch := latch, lastReadAddr := last, stall := stall, nmiRequest := nmi } }
  | cpu (s : State) (c : Cpu) (poll : IrqPoll) (h : StatusForm s.cpu.p → StatusForm c.p) :
      Act s { s with cpu := c, poll := poll }

/-- `t` comes from `s` by acts. -/
def Runs (s t : State) : Prop := Relation.ReflTransGen Act s t

theorem Runs.refl (s : State) : Runs s s := Relation.ReflTransGen.refl

theorem Runs.act {s t u : State} (h : Runs s t) (hact : Act t u) : Runs s u := Relation.ReflTransGen.tail h hact

theorem Runs.trans {s t u : State} (h : Runs s t) (h' : Runs t u) : Runs s u := Relation.ReflTransGen.trans h h'

/-- What every act keeps, a run keeps. -/
theorem Runs.keeps {I : State → Prop} (hact : ∀ s t, Act s t → I s → I t) {s t : State} (h : Runs s t) (hs : I s) :
    I t := by
  induction h with
  | refl => exact hs
  | tail _ hlast ih => exact hact _ _ hlast ih

/-! ### The rules of runs: bus cycles -/

section BusCycles
variable {s t : State} (h : Runs s t)
include h

theorem Runs.tick : Runs s t.tick := h.act (.tick t)

theorem Runs.busWritePlain (a : Word) (v : Byte) : Runs s (t.busWritePlain a v) := h.act (.busWrite t a v)

theorem Runs.latchData (v : Byte) : Runs s (t.latchData v) := h.act (.wires t v _ _ _)

theorem Runs.clearNmi : Runs s { t with dev := { t.dev with nmiRequest := false } } := h.act (.wires t _ _ _ false)

theorem Runs.recordPoll : Runs s t.recordPoll := h.act (.cpu t _ _ id)

theorem Runs.setPoll (b : Bool) : Runs s (t.setPoll b) := h.act (.cpu t _ _ id)

theorem Runs.beginStep : Runs s t.beginStep := h.act (.cpu t _ _ id)

omit h in
theorem Runs.stallCycle (dummy : Word) {d : Devices} (h : Runs s { t with dev := d }) :
    Runs s { t with dev := Machine.stallCycle t.env dummy d } := by
  have hdown : Runs s { t with dev := { d with stall := d.stall - 1 } } := h.act (.wires _ _ _ (d.stall - 1) _)
  exact hdown.tick.act (.busRead _ dummy)

omit h in
theorem Runs.serveStall (dummy : Word) (n : Nat) {d : Devices} (h : Runs s { t with dev := d }) :
    Runs s { t with dev := Machine.serveStall t.env dummy n d } := by
  induction n generalizing d with
  | zero => exact h
  | succ n ih =>
    unfold Machine.serveStall
    split
    · exact h
    · exact ih (Runs.stallCycle dummy h)

theorem Runs.cpuRead (a : Word) : Runs s { t with dev := (Machine.cpuRead t.env a t.dev).2 } := by
  have hserved := Runs.serveStall (t := t) (stallDummy t.env a t.dev) (stallFuel t.dev) h
  exact (hserved.tick.act (.busRead _ a)).act (.wires _ (Machine.cpuRead t.env a t.dev).1 a _ _)

theorem Runs.dmaByte (a : Word) : Runs s (t.dmaByte a) := ((h.cpuRead a).tick.busWritePlain _ _).latchData _

omit h in
theorem Runs.dmaBytes (v : Byte) (n : Nat) {t : State} (h : Runs s t) : Runs s (t.dmaBytes v n) := by
  induction n generalizing t with
  | zero => exact h
  | succ n ih => exact ih (h.dmaByte _)

theorem Runs.oamDma (v : Byte) : Runs s (t.oamDma v) := by
  unfold State.oamDma
  refine Runs.dmaBytes v 256 ?_
  split
  · exact h.tick.tick
  · exact h.tick

theorem Runs.busWrite (a : Word) (v : Byte) : Runs s (t.busWrite a v) := by
  unfold State.busWrite
  split
  · exact h.oamDma v
  · exact h.busWritePlain a v

theorem Runs.read (a : Word) : Runs s (t.read a).2 := (h.cpuRead a).recordPoll

theorem Runs.dummyRead (a : Word) : Runs s (t.dummyRead a) := h.read a

theorem Runs.write (a : Word) (v : Byte) : Runs s (t.write a v) := ((h.tick.busWrite a v).latchData v).recordPoll

end BusCycles

/-! ### The rules of runs: registers -/

section Registers
variable {s t : State} (h : Runs s t)
include h

/-- The registers may take any values that leave the status byte alone. -/
theorem Runs.setCpu (c : Cpu) (hc : c.p = t.cpu.p) : Runs s { t with cpu := c } := h.act (.cpu t c _ (hc ▸ id))

theorem Runs.setPc (w : Word) : Runs s (t.setPc w) := h.setCpu _ rfl

theorem Runs.setA (v : Byte) : Runs s (t.setA v) := h.setCpu _ rfl

theorem Runs.setX (v : Byte) : Runs s (t.setX v) := h.setCpu _ rfl

theorem Runs.setY (v : Byte) : Runs s (t.setY v) := h.setCpu _ rfl

theorem Runs.setS (v : Byte) : Runs s (t.setS v) := h.setCpu _ rfl

theorem Runs.endStep : Runs s t.endStep := h.setCpu _ rfl

theorem Runs.setP {p : Byte} (hp : StatusForm t.cpu.p → StatusForm p) : Runs s (t.setP p) := h.act (.cpu t _ _ hp)

theorem Runs.setAP {r : AluResult} (hr : StatusForm t.cpu.p → StatusForm r.p) : Runs s (t.setAP r) := (h.setA _).setP hr

theorem Runs.setXP {r : AluResult} (hr : StatusForm t.cpu.p → StatusForm r.p) : Runs s (t.setXP r) := (h.setX _).setP hr

theorem Runs.setYP {r : AluResult} (hr : StatusForm t.cpu.p → StatusForm r.p) : Runs s (t.setYP r) := (h.setY _).setP hr

theorem Runs.maskIrq : Runs s t.maskIrq := h.setP (·.setI true)

end Registers

/-! ### The rules of runs: fetches, the stack, interrupts -/

section Sequences
variable {s t : State} (h : Runs s t)
include h

theorem Runs.fetch : Runs s t.fetch.2 := (h.read _).setPc _

theorem Runs.fetchWord : Runs s t.fetchWord.2 := h.fetch.fetch

theorem Runs.dummyFetch : Runs s t.dummyFetch := h.dummyRead _

theorem Runs.push (v : Byte) : Runs s (t.push v) := (h.write _ v).setS _

theorem Runs.pushPc : Runs s t.pushPc := (h.push _).push _

theorem Runs.stackStep : Runs s t.stackStep := (h.dummyRead _).setS _

theorem Runs.readStack : Runs s t.readStack.2 := h.read _

theorem Runs.readStackStep : Runs s t.readStackStep.2 := h.readStack.setS _

theorem Runs.chooseVector (k : Interrupt) : Runs s (t.chooseVector k).2 := by
  unfold State.chooseVector
  split
  · exact h
  all_goals
    split
    · exact h.clearNmi
    · exact h

theorem Runs.loadVector (vec : Word) : Runs s (t.loadVector vec) := ((h.read vec).read _).setPc _

theorem Runs.enterHandler (k : Interrupt) : Runs s (t.enterHandler k) :=
  ((h.pushPc.push _).chooseVector k).maskIrq.loadVector _

theorem Runs.interruptEntry (k : Interrupt) : Runs s (t.interruptEntry k) := h.dummyFetch.dummyFetch.enterHandler k

theorem Runs.returnFromInterrupt : Runs s t.returnFromInterrupt :=
  (h.stackStep.readStackStep.setP fun _ => statusForm_pulledStatus _).readStackStep.readStack.setPc _

theorem Runs.jammedStep : Runs s t.jammedStep := h.dummyFetch.setCpu _ rfl

theorem Runs.nmiStep : Runs s t.nmiStep :=
  (h.clearNmi.setCpu { t.cpu with irqLatch := false } rfl).interruptEntry .nmi

end Sequences

/-! ### The rules of runs: addressing modes -/

section Modes
variable {s t : State} (h : Runs s t)
include h

theorem Runs.readPointer (z : Byte) : Runs s (t.readPointer z).2 := (h.read _).read _

theorem Runs.zeropageIndexed (i : Byte) : Runs s (t.zeropageIndexed i).2 := h.fetch.dummyRead _

theorem Runs.indexedAddr (m : AddrMode) : Runs s (t.indexedAddr m).state := by
  cases m
  case indirectIndexed => exact h.fetch.readPointer _
  all_goals exact h.fetchWord

theorem Runs.effectiveAddr (m : AddrMode) : Runs s (t.effectiveAddr m).2 := by
  cases m with
  | zeropage => exact h.fetch
  | zeropageX => exact h.zeropageIndexed _
  | zeropageY => exact h.zeropageIndexed _
  | absolute => exact h.fetchWord
  | indexedIndirect => exact (h.fetch.dummyRead _).readPointer _
  | absoluteX => exact (h.indexedAddr .absoluteX).dummyRead _
  | absoluteY => exact (h.indexedAddr .absoluteY).dummyRead _
  | indirectIndexed => exact (h.indexedAddr .indirectIndexed).dummyRead _

omit h in
theorem Runs.readOperand {q : IndexedAddr} (h : Runs s q.state) : Runs s q.readOperand.2 := by
  unfold IndexedAddr.readOperand
  dsimp only
  split
  · exact (h.read _).read _
  · exact h.read _

theorem Runs.loadMem (m : AddrMode) : Runs s (t.loadMem m).2 := by
  unfold State.loadMem
  split
  case h_1 | h_2 | h_3 => exact (h.indexedAddr _).readOperand
  all_goals exact (h.effectiveAddr _).read _

theorem Runs.load (m : ReadMode) : Runs s (t.load m).2 := by
  cases m with
  | immediate => exact h.fetch
  | mem m => exact h.loadMem m

theorem Runs.store (m : AddrMode) (v : Byte) : Runs s (t.store m v) := (h.effectiveAddr m).write _ v

theorem Runs.storeHigh (m : AddrMode) (r : Byte) : Runs s (t.storeHigh m r) :=
  ((h.indexedAddr m).dummyRead _).write _ _

theorem Runs.beginModify (m : AddrMode) : Runs s (t.beginModify m).state := ((h.effectiveAddr m).read _).write _ _

end Modes

/-! ### The rules of runs: read-modify-write -/

/-- A read-modify-write operation leaves the status byte in its stored form. -/
def RmwOp.KeepsForm (op : RmwOp) : Prop := ∀ v c, StatusForm c.p → StatusForm (op v c).2.p

/-- So does an operation on a byte and the status. -/
abbrev ShiftKeepsForm (f : Byte → Byte → AluResult) : Prop := ∀ v p, StatusForm p → StatusForm (f v p).p

theorem rmwOf_keepsForm {f : Byte → Byte → AluResult} (hf : ShiftKeepsForm f) : (rmwOf f).KeepsForm :=
  fun v c hc => hf v c.p hc

theorem rmwThenAlu_keepsForm {f : Byte → Byte → AluResult} {g : Byte → Byte → Byte → AluResult}
    (hf : ShiftKeepsForm f) (hg : ∀ a, ShiftKeepsForm (g a)) : (rmwThenAlu f g).KeepsForm :=
  fun v c hc => hg c.a _ _ (hf v c.p hc)

section Rmw
variable {s t : State} (h : Runs s t)
include h

theorem Runs.modify (m : AddrMode) {op : RmwOp} (hop : op.KeepsForm) : Runs s (t.modify m op) := by
  refine ((h.beginModify m).write _ _).act (.cpu _ _ _ fun hp => hop _ _ ?_)
  rwa [State.write_cpu] at hp

theorem Runs.modifyA {f : Byte → Byte → AluResult} (hf : ShiftKeepsForm f) : Runs s (t.modifyA f) :=
  h.dummyFetch.setAP (hf _ _)

theorem Runs.shift (m : RmwMode) {f : Byte → Byte → AluResult} (hf : ShiftKeepsForm f) : Runs s (t.shift m f) := by
  cases m with
  | accumulator => exact h.modifyA hf
  | mem m => exact h.modify m (rmwOf_keepsForm hf)

end Rmw

/-! ### Jumps and branches -/

section Control
variable {s t : State} (h : Runs s t)
include h

theorem Runs.takeBranch (c1 : Bool) (next target : Word) : Runs s (t.takeBranch c1 next target) := by
  unfold State.takeBranch
  dsimp only
  split
  · exact (h.dummyFetch.setPoll c1).setPc target
  · exact ((h.dummyFetch.dummyRead _).setPoll _).setPc target

theorem Runs.branch (taken : Bool) : Runs s (t.branch taken) := by
  cases taken with
  | false => exact h.fetch
  | true => exact h.fetch.takeBranch _ _ _

end Control

theorem execJmp_runs (m : JmpMode) (s : State) : ∃ t, execJmp m s = .next t ∧ Runs s t := by
  have h := (Runs.refl s).fetchWord
  cases m with
  | absolute => exact ⟨_, rfl, h.setPc _⟩
  | indirect => exact ⟨_, rfl, ((h.read _).read _).setPc _⟩

/-! ### Every instruction, every step -/

/-- Every instruction has a next state and is a run of acts. -/
theorem exec_runs (i : Instr) (s : State) : ∃ t, exec i s = .next t ∧ Runs s t := by
  have h := Runs.refl s
  cases i with
  | lda m => exact ⟨_, rfl, (h.load m).setAP (·.setNZ _)⟩
  | ldx m => exact ⟨_, rfl, (h.load m).setXP (·.setNZ _)⟩
  | ldy m => exact ⟨_, rfl, (h.load m).setYP (·.setNZ _)⟩
  | sta m => exact ⟨_, rfl, h.store m _⟩
  | stx m => exact ⟨_, rfl, h.store m _⟩
  | sty m => exact ⟨_, rfl, h.store m _⟩
  | tax => exact ⟨_, rfl, h.dummyFetch.setXP (·.setNZ _)⟩
  | tay => exact ⟨_, rfl, h.dummyFetch.setYP (·.setNZ _)⟩
  | txa => exact ⟨_, rfl, h.dummyFetch.setAP (·.setNZ _)⟩
  | tya => exact ⟨_, rfl, h.dummyFetch.setAP (·.setNZ _)⟩
  | tsx => exact ⟨_, rfl, h.dummyFetch.setXP (·.setNZ _)⟩
  | txs => exact ⟨_, rfl, h.dummyFetch.setS _⟩
  | pha => exact ⟨_, rfl, h.dummyFetch.push _⟩
  | php => exact ⟨_, rfl, h.dummyFetch.push _⟩
  | pla => exact ⟨_, rfl, h.dummyFetch.stackStep.readStack.setAP (·.setNZ _)⟩
  | plp => exact ⟨_, rfl, h.dummyFetch.stackStep.readStack.setP fun _ => statusForm_pulledStatus _⟩
  | ora m => exact ⟨_, rfl, (h.load m).setAP (·.setNZ _)⟩
  | and m => exact ⟨_, rfl, (h.load m).setAP (·.setNZ _)⟩
  | eor m => exact ⟨_, rfl, (h.load m).setAP (·.setNZ _)⟩
  | adc m => exact ⟨_, rfl, (h.load m).setAP (·.adc _ _)⟩
  | sbc m => exact ⟨_, rfl, (h.load m).setAP (·.adc _ _)⟩
  | cmp m => exact ⟨_, rfl, (h.load m).setP (·.compare _ _)⟩
  | cpx m => exact ⟨_, rfl, (h.load m).setP (·.compare _ _)⟩
  | cpy m => exact ⟨_, rfl, (h.load m).setP (·.compare _ _)⟩
  | bit m => exact ⟨_, rfl, (h.loadMem m).setP (·.bitTest _ _)⟩
  | asl m => exact ⟨_, rfl, h.shift m fun v _ => (·.asl v)⟩
  | lsr m => exact ⟨_, rfl, h.shift m fun v _ => (·.lsr v)⟩
  | rol m => exact ⟨_, rfl, h.shift m fun v _ => (·.rol v)⟩
  | ror m => exact ⟨_, rfl, h.shift m fun v _ => (·.ror v)⟩
  | inc m => exact ⟨_, rfl, h.modify m (rmwOf_keepsForm fun _ _ => (·.setNZ _))⟩
  | dec m => exact ⟨_, rfl, h.modify m (rmwOf_keepsForm fun _ _ => (·.setNZ _))⟩
  | inx => exact ⟨_, rfl, h.dummyFetch.setXP (·.setNZ _)⟩
  | iny => exact ⟨_, rfl, h.dummyFetch.setYP (·.setNZ _)⟩
  | dex => exact ⟨_, rfl, h.dummyFetch.setXP (·.setNZ _)⟩
  | dey => exact ⟨_, rfl, h.dummyFetch.setYP (·.setNZ _)⟩
  | jmp m => exact execJmp_runs m s
  | jsr => exact ⟨_, rfl, ((h.fetch.dummyRead _).pushPc.read _).setPc _⟩
  | rts => exact ⟨_, rfl, (h.dummyFetch.stackStep.readStackStep.readStack.setPc _).dummyFetch.setPc _⟩
  | rti => exact ⟨_, rfl, h.dummyFetch.returnFromInterrupt⟩
  | brk => exact ⟨_, rfl, h.fetch.enterHandler .brk⟩
  | bpl => exact ⟨_, rfl, h.branch _⟩
  | bmi => exact ⟨_, rfl, h.branch _⟩
  | bvc => exact ⟨_, rfl, h.branch _⟩
  | bvs => exact ⟨_, rfl, h.branch _⟩
  | bcc => exact ⟨_, rfl, h.branch _⟩
  | bcs => exact ⟨_, rfl, h.branch _⟩
  | bne => exact ⟨_, rfl, h.branch _⟩
  | beq => exact ⟨_, rfl, h.branch _⟩
  | clc => exact ⟨_, rfl, h.dummyFetch.setP (·.setC false)⟩
  | sec => exact ⟨_, rfl, h.dummyFetch.setP (·.setC true)⟩
  | cli => exact ⟨_, rfl, h.dummyFetch.setP (·.setI false)⟩
  | sei => exact ⟨_, rfl, h.dummyFetch.setP (·.setI true)⟩
  | clv => exact ⟨_, rfl, h.dummyFetch.setP (·.setV false)⟩
  | cld => exact ⟨_, rfl, h.dummyFetch.setP (·.setD false)⟩
  | sed => exact ⟨_, rfl, h.dummyFetch.setP (·.setD true)⟩
  | nop => exact ⟨_, rfl, h.dummyFetch⟩
  | slo m => exact ⟨_, rfl, h.modify m (rmwThenAlu_keepsForm (fun v _ => (·.asl v)) fun _ _ _ => (·.setNZ _))⟩
  | rla m => exact ⟨_, rfl, h.modify m (rmwThenAlu_keepsForm (fun v _ => (·.rol v)) fun _ _ _ => (·.setNZ _))⟩
  | sre m => exact ⟨_, rfl, h.modify m (rmwThenAlu_keepsForm (fun v _ => (·.lsr v)) fun _ _ _ => (·.setNZ _))⟩
  | rra m => exact ⟨_, rfl, h.modify m (rmwThenAlu_keepsForm (fun v _ => (·.ror v)) fun _ _ _ => (·.adc _ _))⟩
  | dcp m => exact ⟨_, rfl, h.modify m (rmwThenAlu_keepsForm (fun _ _ => (·.setNZ _)) fun _ _ _ => (·.compare _ _))⟩
  | isc m => exact ⟨_, rfl, h.modify m (rmwThenAlu_keepsForm (fun _ _ => (·.setNZ _)) fun _ _ _ => (·.adc _ _))⟩
  | sax m => exact ⟨_, rfl, h.store m _⟩
  | lax m => exact ⟨_, rfl, ((h.loadMem m).setX _).setAP (·.setNZ _)⟩
  | anc op => exact ⟨_, rfl, h.fetch.setAP (·.anc _ _)⟩
  | alr => exact ⟨_, rfl, h.fetch.setAP (·.lsr _)⟩
  | arr => exact ⟨_, rfl, h.fetch.setAP (·.arr _ _)⟩
  | axs => exact ⟨_, rfl, h.fetch.setXP (·.axs _ _ _)⟩
  | ane => exact ⟨_, rfl, h.fetch.setAP (·.setNZ _)⟩
  | lxa => exact ⟨_, rfl, (h.fetch.setX _).setAP (·.setNZ _)⟩
  | sbcUnofficial => exact ⟨_, rfl, h.fetch.setAP (·.adc _ _)⟩
  | sha m => exact ⟨_, rfl, h.storeHigh _ _⟩
  | shx => exact ⟨_, rfl, h.storeHigh _ _⟩
  | shy => exact ⟨_, rfl, h.storeHigh _ _⟩
  | shs => exact ⟨_, rfl, (h.setS _).storeHigh _ _⟩
  | las => exact ⟨_, rfl, (((h.loadMem .absoluteY).setS _).setX _).setAP (·.setNZ _)⟩
  | nopImplied op => exact ⟨_, rfl, h.dummyFetch⟩
  | nopImmediate op => exact ⟨_, rfl, h.load .immediate⟩
  | nopZeropage op => exact ⟨_, rfl, h.loadMem .zeropage⟩
  | nopZeropageX op => exact ⟨_, rfl, h.loadMem .zeropageX⟩
  | nopAbsolute => exact ⟨_, rfl, h.loadMem .absolute⟩
  | nopAbsoluteX op => exact ⟨_, rfl, h.loadMem .absoluteX⟩
  | jam op => exact ⟨_, rfl, h.setCpu _ rfl⟩

theorem runInstruction_runs (s : State) : ∃ t, runInstruction s = .next t ∧ Runs s t := by
  obtain ⟨t, hexec, ht⟩ := exec_runs (decodeOpcode s.fetch.1) s.fetch.2
  refine ⟨t.endStep, ?_, ?_⟩
  · unfold runInstruction
    dsimp only
    rw [hexec]
    rfl
  · exact ((Runs.refl s).fetch.trans ht).endStep

/-- Every step has a next state and is a run of acts. -/
theorem step_runs (s : State) : ∃ t, step s = .next t ∧ Runs s t := by
  have h := (Runs.refl s).beginStep
  unfold step
  dsimp only
  split
  · exact ⟨_, rfl, h.jammedStep⟩
  · split
    · exact ⟨_, rfl, h.nmiStep.endStep⟩
    · exact ⟨_, rfl, (h.interruptEntry _).endStep⟩
    · obtain ⟨t, hrun, ht⟩ := runInstruction_runs s.beginStep
      exact ⟨t, hrun, h.trans ht⟩

/-- What every act keeps, every step keeps. -/
theorem step_keeps {I : State → Prop} (hact : ∀ s t, Act s t → I s → I t) {s t : State} (hs : I s)
    (hstep : step s = .next t) : I t := by
  obtain ⟨u, hu, hruns⟩ := step_runs s
  obtain rfl : u = t := by
    rw [hstep] at hu
    exact (Host.Outcome.next.inj hu).symm
  exact hruns.keeps hact hs

/-! ### O47: bits 5 and 4 of P -/

theorem Act.keeps_statusOk {s t : State} (h : Act s t) (hs : s.StatusOk) : t.StatusOk := by
  cases h with
  | cpu c poll hc => exact (statusOk_iff _).2 (hc ((statusOk_iff s).1 hs))
  | tick | busRead a | busWrite a v | wires latch last stall nmi => exact hs

/-- Settles O47: the CPU's registers are the only act that writes P, and it keeps the stored form. -/
theorem stepKeepsStatus : Obligations.StepKeepsStatus := by
  unfold Obligations.StepKeepsStatus
  exact fun _ _ => step_keeps fun _ _ => Act.keeps_statusOk

end Sys2Proof.Machine
end

section
/-! The raster invariant of O49, device by device: what every dot, tick, bus read and bus write does to the raster
position, the sprite counts, the PPU clock and the cycle counter. -/

namespace Sys2Proof.Machine

/-! ### The invariant of the devices -/

/-- The position is one of the 341 x 262 (51_ppu.md R320, R321). -/
def Raster.InRange (r : Raster) : Prop := (-1 ≤ r.scanline ∧ r.scanline ≤ 260) ∧ r.dot ≤ 340

/-- At most eight sprites in secondary OAM and on the line (R330). -/
def SpritePipe.AtMostEight (s : SpritePipe) : Prop := s.secCount ≤ 8 ∧ s.count ≤ 8

/-- Raster in range, at most eight sprites, `clock` dots and `cycles` CPU cycles made. -/
def Devices.RasterAt (clock cycles : Nat) (d : Devices) : Prop :=
  d.ppu.raster.InRange ∧ d.ppu.spr.AtMostEight ∧ d.ppu.raster.clock = clock ∧ d.cycles = cycles

theorem rasterOk_iff (s : State) : s.RasterOk ↔ s.dev.RasterAt (3 * s.dev.cycles) s.dev.cycles := by
  unfold State.RasterOk Devices.RasterAt Raster.InRange SpritePipe.AtMostEight
  simp [and_assoc]

theorem rasterOk_of_rasterAt {s : State} {n : Nat} (h : s.dev.RasterAt (3 * n) n) : s.RasterOk := by
  have ⟨_, _, _, hcycles⟩ := h
  subst hcycles
  exact (rasterOk_iff s).2 h

/-! ### The position after a dot (R321) -/

/-- The position wraps at dot 341 and at line 261. -/
theorem Raster.InRange.advance {r : Raster} (h : r.InRange) (rendering : Bool) : (r.advance rendering).InRange := by
  obtain ⟨⟨hlow, hhigh⟩, hdot⟩ := h
  unfold Raster.advance
  split
  · split
    · exact ⟨by simp, by dsimp only; split <;> simp⟩
    · exact ⟨by dsimp only; omega, Nat.zero_le _⟩
  · exact ⟨⟨hlow, hhigh⟩, by dsimp only; omega⟩

theorem Raster.advance_clock (r : Raster) (rendering : Bool) : (r.advance rendering).clock = r.clock := by
  unfold Raster.advance
  split
  · split <;> rfl
  · rfl

/-! ### The pieces of a dot: most of them write other fields only -/

section Kept
variable {k n : Nat} {d : Devices} (h : d.RasterAt k n)
include h

/-- A replaced sprite pipeline must keep its counts small. -/
theorem rasterAt_setSpr {s : SpritePipe} (hs : s.AtMostEight) : (d.setSpr s).RasterAt k n := by
  obtain ⟨hpos, _, hclock⟩ := h
  exact ⟨hpos, hs, hclock⟩

theorem rasterAt_setOamAddr (v : Byte) : (d.setPpu { d.ppu with oamAddr := v }).RasterAt k n := h

theorem rasterAt_setApu (a : Apu) : ({ d with apu := a } : Devices).RasterAt k n := h

theorem rasterAt_updateNmi : (updateNmi d).RasterAt k n := h

theorem rasterAt_bgFetch (e : Env) (dot : Nat) : (bgFetch e dot d).RasterAt k n := by
  unfold bgFetch
  split
  · split <;> exact h
  all_goals exact h

theorem rasterAt_bgDot (e : Env) (dot : Nat) : (bgDot e dot d).RasterAt k n := by
  unfold bgDot
  split
  · refine rasterAt_bgFetch ?_ e dot
    split <;> split <;> exact h
  · exact h

theorem rasterAt_scrollDot (e : Env) (l : Int) (dot : Nat) : (scrollDot e l dot d).RasterAt k n := by
  unfold scrollDot
  split
  · exact h
  · split
    · exact h
    · split
      · exact h
      · split <;> exact h

theorem rasterAt_pixelDot (e : Env) (y x : Nat) : (pixelDot e y x d).RasterAt k n := h

theorem rasterAt_outputDot (e : Env) (l : Int) (dot : Nat) : (outputDot e l dot d).RasterAt k n := by
  unfold outputDot
  split
  · exact rasterAt_pixelDot h e _ _
  · exact h

theorem rasterAt_vblankDot (l : Int) (dot : Nat) : (vblankDot l dot d).RasterAt k n := by
  unfold vblankDot
  split
  · split
    · exact h
    · split <;> exact h
  · exact h

/-! ### Sprites (R330, R332) -/

/-- Evaluation takes the first eight entries in range. -/
theorem rasterAt_evalSprites (e : Env) (l : Int) : (evalSprites e l d).RasterAt k n := by
  obtain ⟨hpos, ⟨_, hcount⟩, hclock⟩ := h
  exact ⟨hpos, ⟨List.length_take_le 8 _, hcount⟩, hclock⟩

/-- The last fetch of a line puts on it what evaluation selected. -/
theorem rasterAt_spriteFetch (e : Env) (l : Int) (dot : Nat) : (spriteFetch e l dot d).RasterAt k n := by
  have ⟨_, ⟨hsec, _⟩, _⟩ := h
  unfold spriteFetch
  dsimp only
  split
  case h_4 => split <;> exact h
  case h_5 =>
    split
    · exact rasterAt_setSpr h ⟨hsec, hsec⟩
    · exact h
  all_goals exact h

theorem rasterAt_spriteDot (e : Env) (l : Int) (dot : Nat) : (spriteDot e l dot d).RasterAt k n := by
  unfold spriteDot
  split
  · refine rasterAt_setOamAddr (rasterAt_spriteFetch ?_ e l dot) _
    split
    · exact rasterAt_evalSprites h e l
    · exact h
  · exact h

theorem rasterAt_renderDot (e : Env) (l : Int) (dot : Nat) : (renderDot e l dot d).RasterAt k n := by
  unfold renderDot
  split
  · exact rasterAt_spriteDot (rasterAt_scrollDot (rasterAt_bgDot h e dot) e l dot) e l dot
  · exact h

/-! ### The dot (R320, R321) -/

theorem rasterAt_ageDot (e : Env) : (ageDot e d).RasterAt (k + 1) n := by
  obtain ⟨hpos, hspr, hclock, hcycles⟩ := h
  exact ⟨hpos, hspr, congrArg (· + 1) hclock, hcycles⟩

theorem rasterAt_advance :
    (d.setPpu { d.ppu with raster := d.ppu.raster.advance d.ppu.rendering }).RasterAt k n := by
  obtain ⟨hpos, hspr, hclock, hcycles⟩ := h
  exact ⟨hpos.advance _, hspr, (Raster.advance_clock _ _).trans hclock, hcycles⟩

/-- A dot moves the clock on by one. -/
theorem rasterAt_ppuDot (e : Env) : (ppuDot e d).RasterAt (k + 1) n :=
  rasterAt_advance (rasterAt_updateNmi (rasterAt_outputDot (rasterAt_renderDot (rasterAt_vblankDot
    (rasterAt_ageDot h e) _ _) e _ _) e _ _))

/-! ### Bus accesses -/

theorem rasterAt_ppuRegRead (e : Env) (i : Nat) : (ppuRegRead e i d).2.RasterAt k n := by
  unfold ppuRegRead
  split
  · exact h
  · exact h
  · unfold readPpuData
    dsimp only
    split <;> exact h
  · exact h

theorem rasterAt_ioRead (r : Nat) : (ioRead r d).2.RasterAt k n := by
  unfold ioRead
  split <;> exact h

theorem rasterAt_busRead (e : Env) (a : Word) : (busRead e a d).2.RasterAt k n := by
  unfold busRead
  split
  · exact h
  · exact rasterAt_ppuRegRead h e _
  · exact rasterAt_ioRead h _
  · exact h

theorem rasterAt_ppuRegWrite (e : Env) (i : Nat) (v : Byte) : (ppuRegWrite e i v d).RasterAt k n := by
  unfold ppuRegWrite ppuRegEffect
  split
  case h_6 =>
    unfold writeAddr
    dsimp only
    split <;> exact h
  all_goals exact h

theorem rasterAt_dmcRefill (e : Env) : (dmcRefill e d).RasterAt k n := by
  unfold dmcRefill
  split
  · exact rasterAt_busRead h e _
  · exact h

theorem rasterAt_busWriteDevices (e : Env) (a : Word) (v : Byte) : (busWriteDevices e a v d).RasterAt k n := by
  unfold busWriteDevices
  split
  · exact h
  · exact rasterAt_ppuRegWrite h e _ v
  · split
    · exact h
    · split
      · exact rasterAt_dmcRefill (rasterAt_setApu h _) e
      · split <;> exact h
  · exact h

/-! ### The tick (50_bus.md R272) -/

theorem rasterAt_apuTick (e : Env) : (apuTick e d).RasterAt k n :=
  rasterAt_dmcRefill (rasterAt_setApu h _) e

/-- A CPU cycle of machine time is three dots. -/
theorem rasterAt_tick (e : Env) : (tick e d).RasterAt (k + 3) (n + 1) := by
  have hcycle : ({ d with cycles := d.cycles + 1 } : Devices).RasterAt k (n + 1) := by
    obtain ⟨hpos, hspr, hclock, hcycles⟩ := h
    exact ⟨hpos, hspr, hclock, congrArg (· + 1) hcycles⟩
  exact rasterAt_apuTick (rasterAt_ppuDot (rasterAt_ppuDot (rasterAt_ppuDot hcycle e) e) e) e

end Kept

/-! ### O49: the raster -/

theorem Act.keeps_rasterOk {s t : State} (h : Act s t) (hs : s.RasterOk) : t.RasterOk := by
  have hdev := (rasterOk_iff s).1 hs
  cases h with
  | tick => exact rasterOk_of_rasterAt (n := s.dev.cycles + 1) (rasterAt_tick hdev s.env)
  | busRead a => exact rasterOk_of_rasterAt (rasterAt_busRead hdev s.env a)
  | busWrite a v => exact rasterOk_of_rasterAt (rasterAt_busWriteDevices hdev s.env a v)
  | wires latch last stall nmi => exact hs
  | cpu c poll hc => exact hs

/-- Settles O49: only a tick moves the raster, and it makes three dots and one cycle; bus accesses leave it alone. -/
theorem stepKeepsRaster : Obligations.StepKeepsRaster := by
  unfold Obligations.StepKeepsRaster
  exact fun _ _ => step_keeps fun _ _ => Act.keeps_rasterOk

end Sys2Proof.Machine
end

section
/-! What a tick and a bus read leave of the memory map (50_bus.md R272, 20_memory.md R72): the CPU sees the same
cartridge, and the frame buffer stays in canonical form. -/

namespace Sys2Proof.Machine

/-! ### The mapper's own events (53_cartridge_mappers.md) -/

/-- The CPU finds the same cartridge at every address but 0x5204, MMC5's status register. -/
def Mapper.SameMap (m m' : Mapper) : Prop :=
  ∀ (c : Cart) (a : Word), a.toNat ≠ 0x5204 → m'.cpuMap c a = m.cpuMap c a

/-- What the CPU reads depends on a mapper through its map only. -/
theorem Mapper.SameMap.cpuPeek {m m' : Mapper} (h : m.SameMap m') (e : Env) {a : Word} (ha : a.toNat ≠ 0x5204) :
    m'.cpuPeek e a = m.cpuPeek e a := by
  unfold Mapper.cpuPeek
  rw [h e.cart a ha]

/-- The IRQ counter selects no bank. -/
theorem Mmc3.prgOffset_clockIrq (m : Mmc3) (c : Cart) (a : Nat) : m.clockIrq.prgOffset c a = m.prgOffset c a := by
  unfold Mmc3.clockIrq
  dsimp only
  split <;> rfl

/-- Nor does the A12 filter (R452). -/
theorem Mmc3.prgOffset_notify (gap : Nat) (m : Mmc3) (addr : PpuAddr) (clock : Nat) (c : Cart) (a : Nat) :
    (m.notify gap addr clock).prgOffset c a = m.prgOffset c a := by
  have hlow : (if !bitOf addr 12 && m.a12 then { m with a12LowSince := clock } else m).prgOffset c a =
      m.prgOffset c a := by split <;> rfl
  unfold Mmc3.notify
  dsimp only
  split
  · exact (Mmc3.prgOffset_clockIrq _ c a).trans hlow
  · exact hlow

/-- Of MMC5's map only the status register shows the scanline detection and its IRQ (R462). -/
theorem Mmc5.cpuLoc_withDetection (m : Mmc5) (pending inFrame : Bool) (count : Byte) (last : Option PpuAddr)
    (detect : Nat) (c : Cart) {a : Nat} (ha : a ≠ 0x5204) :
    ({ m with
      irqPending := pending, inFrame := inFrame, scanCounter := count, lastNtAddr := last,
      lastDetect := detect } : Mmc5).cpuLoc c a = m.cpuLoc c a := by
  unfold Mmc5.cpuLoc
  rw [if_neg ha, if_neg ha]
  rfl

/-- A bus address moves the scanline detection and no more (R465). -/
theorem Mmc5.notify_eq (m : Mmc5) (addr : PpuAddr) (clock : Nat) :
    ∃ pending inFrame count last detect, m.notify addr clock = { m with
      irqPending := pending, inFrame := inFrame, scanCounter := count, lastNtAddr := last, lastDetect := detect } := by
  unfold Mmc5.notify
  dsimp only
  split
  · split <;> exact ⟨_, _, _, _, _, rfl⟩
  · exact ⟨_, _, _, _, _, rfl⟩

/-- The CHR latches of MMC2 and MMC4 select no PRG bank (R443). -/
theorem Mmc2.latchAfterRead_prg (m : Mmc2) (isMmc4 : Bool) (a : Nat) : (m.latchAfterRead isMmc4 a).prg = m.prg := by
  unfold Mmc2.latchAfterRead
  simp only [apply_ite Mmc2.prg, ite_self]

section SameMap
variable {m m' : Mapper} (h : m.SameMap m')
include h

theorem Mapper.SameMap.notifyPpuAddress (p : Params) (addr : PpuAddr) (clock : Nat) :
    m.SameMap (m'.notifyPpuAddress p addr clock) := by
  intro c a ha
  rw [← h c a ha]
  cases m' with
  | mmc3 m' =>
    unfold Mapper.notifyPpuAddress Mapper.cpuMap Mapper.prgOffset
    dsimp only
    rw [Mmc3.prgOffset_notify]
  | mmc5 m' =>
    obtain ⟨_, _, _, _, _, hnotify⟩ := Mmc5.notify_eq m' addr clock
    unfold Mapper.notifyPpuAddress Mapper.cpuMap
    dsimp only
    rw [hnotify]
    exact Mmc5.cpuLoc_withDetection m' _ _ _ _ _ c ha
  | _ => rfl

theorem Mapper.SameMap.afterPpuRead (addr : PpuAddr) : m.SameMap (m'.afterPpuRead addr) := by
  intro c a ha
  rw [← h c a ha]
  cases m' with
  | mmc2 q | mmc4 q =>
    unfold Mapper.afterPpuRead Mapper.cpuMap Mapper.prgOffset
    dsimp only
    rw [Mmc2.latchAfterRead_prg]
  | _ => rfl

/-- A read acknowledges MMC5's IRQ and no more (R466). -/
theorem Mapper.SameMap.afterCpuRead (b : Word) : m.SameMap (m'.afterCpuRead b) := by
  intro c a ha
  rw [← h c a ha]
  cases m' with
  | mmc5 q =>
    unfold Mapper.afterCpuRead
    dsimp only
    split
    · exact Mmc5.cpuLoc_withDetection q _ _ _ _ _ c ha
    · rfl
  | _ => rfl

end SameMap

/-! ### Ticks and reads -/

/-- Since `d0` the CPU's map of the cartridge has stayed and the frame buffer has kept its canonical form. -/
def Devices.QuietSince (d0 d : Devices) : Prop :=
  d0.mapper.SameMap d.mapper ∧ (d0.ppu.frameBuffer.wf = true → d.ppu.frameBuffer.wf = true)

theorem Devices.QuietSince.refl (d : Devices) : d.QuietSince d := ⟨fun _ _ _ => rfl, id⟩

section Quiet
variable {d0 d : Devices} (h : d0.QuietSince d)
include h

theorem quiet_setApu (a : Apu) : d0.QuietSince { d with apu := a } := h

theorem quiet_setOamAddr (v : Byte) : d0.QuietSince (d.setPpu { d.ppu with oamAddr := v }) := h

theorem quiet_updateNmi : d0.QuietSince (updateNmi d) := h

/-- A PPU access notifies the mapper, and may move a CHR latch. -/
theorem quiet_setBusAddr (e : Env) (addr : PpuAddr) : d0.QuietSince (setBusAddr e addr d) :=
  ⟨h.1.notifyPpuAddress _ _ _, h.2⟩

theorem quiet_ppuRead (e : Env) (addr : PpuAddr) : d0.QuietSince (ppuRead e addr d).2 :=
  have ⟨hmap, hframe⟩ := quiet_setBusAddr h e addr
  ⟨hmap.afterPpuRead addr, hframe⟩

theorem quiet_fetchNt (e : Env) : d0.QuietSince (fetchNt e d) := quiet_ppuRead h e _

theorem quiet_bgFetch (e : Env) (dot : Nat) : d0.QuietSince (bgFetch e dot d) := by
  unfold bgFetch
  split
  · split
    · exact h
    · exact quiet_fetchNt h e
  case h_5 | h_6 => exact h
  all_goals exact quiet_ppuRead h e _

theorem quiet_bgDot (e : Env) (dot : Nat) : d0.QuietSince (bgDot e dot d) := by
  unfold bgDot
  split
  · refine quiet_bgFetch ?_ e dot
    split <;> split <;> exact h
  · exact h

theorem quiet_scrollDot (e : Env) (l : Int) (dot : Nat) : d0.QuietSince (scrollDot e l dot d) := by
  unfold scrollDot
  split
  · exact h
  · split
    · exact h
    · split
      · exact h
      · split
        · exact quiet_fetchNt h e
        · exact h

theorem quiet_spriteFetch (e : Env) (l : Int) (dot : Nat) : d0.QuietSince (spriteFetch e l dot d) := by
  unfold spriteFetch
  dsimp only
  split
  case h_4 => split <;> exact quiet_ppuRead h e _
  case h_5 => split <;> exact h
  case h_6 => exact h
  all_goals exact quiet_ppuRead h e _

theorem quiet_spriteDot (e : Env) (l : Int) (dot : Nat) : d0.QuietSince (spriteDot e l dot d) := by
  unfold spriteDot
  split
  · have heval : d0.QuietSince (if dot = 257 then evalSprites e l d else d) := by split <;> exact h
    exact quiet_setOamAddr (quiet_spriteFetch heval e l dot) _
  · exact h

theorem quiet_renderDot (e : Env) (l : Int) (dot : Nat) : d0.QuietSince (renderDot e l dot d) := by
  unfold renderDot
  split
  · exact quiet_spriteDot (quiet_scrollDot (quiet_bgDot h e dot) e l dot) e l dot
  · exact h

/-- The one write to the frame buffer. -/
theorem quiet_pixelDot (e : Env) (y x : Nat) : d0.QuietSince (pixelDot e y x d) :=
  ⟨h.1, fun hwf => Cells.wf_write (h.2 hwf) _ _⟩

theorem quiet_outputDot (e : Env) (l : Int) (dot : Nat) : d0.QuietSince (outputDot e l dot d) := by
  unfold outputDot
  split
  · exact quiet_pixelDot h e _ _
  · exact h

theorem quiet_vblankDot (l : Int) (dot : Nat) : d0.QuietSince (vblankDot l dot d) := by
  unfold vblankDot
  split
  · split
    · exact h
    · split <;> exact h
  · exact h

theorem quiet_ppuDot (e : Env) : d0.QuietSince (ppuDot e d) := by
  have haged : d0.QuietSince (ageDot e d) := h
  exact quiet_updateNmi (quiet_outputDot (quiet_renderDot (quiet_vblankDot haged _ _) e _ _) e _ _)

theorem quiet_readPpuData (e : Env) : d0.QuietSince (readPpuData e d).2 := by
  unfold readPpuData incVram
  dsimp only
  split <;> exact quiet_setBusAddr (quiet_ppuRead h e _) e _

theorem quiet_ppuRegRead (e : Env) (i : Nat) : d0.QuietSince (ppuRegRead e i d).2 := by
  unfold ppuRegRead
  split
  case h_3 => exact quiet_readPpuData h e
  all_goals exact h

theorem quiet_busRead (e : Env) (a : Word) : d0.QuietSince (busRead e a d).2 := by
  unfold busRead
  split
  · exact h
  · exact quiet_ppuRegRead h e _
  · unfold ioRead
    split <;> exact h
  · exact ⟨h.1.afterCpuRead a, h.2⟩

theorem quiet_dmcRefill (e : Env) : d0.QuietSince (dmcRefill e d) := by
  unfold dmcRefill
  split
  · exact quiet_busRead h e _
  · exact h

theorem quiet_tick (e : Env) : d0.QuietSince (tick e d) := by
  have hcycle : d0.QuietSince { d with cycles := d.cycles + 1 } := h
  have hdots := quiet_ppuDot (quiet_ppuDot (quiet_ppuDot hcycle e) e) e
  exact quiet_dmcRefill (quiet_setApu hdots _) e

omit h in
theorem quiet_serveStall (e : Env) (dummy : Word) (n : Nat) {d : Devices} (h : d0.QuietSince d) :
    d0.QuietSince (serveStall e dummy n d) := by
  induction n generalizing d with
  | zero => exact h
  | succ n ih =>
    unfold serveStall
    split
    · exact h
    · have hdown : d0.QuietSince { d with stall := d.stall - 1 } := h
      exact ih (quiet_busRead (quiet_tick hdown e) e dummy)

theorem quiet_cpuRead (e : Env) (a : Word) : d0.QuietSince (cpuRead e a d).2 :=
  quiet_busRead (quiet_tick (quiet_serveStall e _ _ h) e) e a

end Quiet

/-! ### O48: canonical memories -/

/-- A bus write reaches the frame buffer at most through the DMC fetch that enabling the DMC starts. -/
theorem wf_frameBuffer_busWriteDevices (e : Env) (a : Word) (v : Byte) {d : Devices}
    (h : d.ppu.frameBuffer.wf = true) : (busWriteDevices e a v d).ppu.frameBuffer.wf = true := by
  unfold busWriteDevices
  split
  · exact h
  · unfold ppuRegWrite ppuRegEffect
    split
    case h_6 =>
      unfold writeAddr
      dsimp only
      split <;> exact h
    all_goals exact h
  · split
    · exact h
    · split
      · exact (quiet_dmcRefill (quiet_setApu (.refl d) _) e).2 h
      · split <;> exact h
  · exact h

theorem Act.keeps_memoryOk {s t : State} (h : Act s t) (hs : s.MemoryOk) : t.MemoryOk := by
  have ⟨hmem, hframe⟩ := hs
  cases h with
  | tick => exact ⟨hmem, (quiet_tick (.refl s.dev) s.env).2 hframe⟩
  | busRead a => exact ⟨hmem, (quiet_busRead (.refl s.dev) s.env a).2 hframe⟩
  | busWrite a v => exact ⟨Memories.wf_storeAt hmem _ _, wf_frameBuffer_busWriteDevices s.env a v hframe⟩
  | wires latch last stall nmi => exact hs
  | cpu c poll hc => exact hs

/-- Settles O48: memories change by stores and the frame buffer by its pixel, and both are canonical writes. -/
theorem stepKeepsMemory : Obligations.StepKeepsMemory := by
  unfold Obligations.StepKeepsMemory
  exact fun _ _ => step_keeps fun _ _ => Act.keeps_memoryOk

end Sys2Proof.Machine
end

section
/-! The bus cycles of the CPU on memory: what a read returns and a write stores (20_memory.md R62, R72, R80; 50_bus.md
R271 to R276). -/

namespace Sys2Proof.Machine

/-! ### O8: read cycles -/

/-- Below 0x2000 is the internal RAM, 2 KB long (R62). -/
theorem busTarget_below_2000 {a : Word} (ha : a.toNat < 0x2000) : busTarget a = .ram (a.toNat % 0x800) := by
  have hmask : (a &&& 0x07FF#16).toNat = a.toNat % 0x800 := by
    rw [BitVec.toNat_and]
    exact Nat.and_two_pow_sub_one_eq_mod a.toNat 11
  rw [busTarget, if_pos ha, hmask]

/-- From 0x4020 on is the cartridge. -/
theorem busTarget_from_4020 {a : Word} (ha : 0x4020 ≤ a.toNat) : busTarget a = .cart := by
  rw [busTarget, if_neg (by omega), if_neg (by omega), if_neg (by omega)]

/-- Devices that have been quiet show the same byte at every stable address. -/
theorem Devices.QuietSince.peek {s t : State} (h : s.dev.QuietSince t.dev) (henv : t.env = s.env) {a : Word}
    (ha : Stable a) : t.peek a = s.peek a := by
  have hmem : t.mem = s.mem := congrArg Env.mem henv
  unfold State.peek
  rcases ha with hram | hcart
  · rw [busTarget_below_2000 hram]
    dsimp only
    rw [hmem]
  · rw [busTarget_from_4020 (by omega)]
    dsimp only
    rw [henv]
    exact h.1.cpuPeek s.env (by omega)

/-- A bus read of a stable address returns what `Peek` showed while the devices have been quiet. -/
theorem busRead_value_stable {s : State} {d : Devices} (h : s.dev.QuietSince d) {a : Word} (ha : Stable a) :
    (busRead s.env a d).1 = s.peek a := by
  unfold busRead State.peek
  rcases ha with hram | hcart
  · rw [busTarget_below_2000 hram]
    rfl
  · rw [busTarget_from_4020 (by omega)]
    exact h.1.cpuPeek s.env (by omega)

theorem State.read_keepsMemory (a : Word) (s : State) : KeepsMemory s (s.read a).2 := ⟨fun _ => rfl, rfl, rfl⟩

/-- The stall cycles and the tick before the access do not change what it returns. -/
theorem State.read_value_stable (s : State) {a : Word} (ha : Stable a) : (s.read a).1 = s.peek a :=
  busRead_value_stable (quiet_tick (quiet_serveStall s.env _ _ (.refl s.dev)) s.env) ha

theorem State.read_peek_stable (a : Word) (s : State) {b : Word} (hb : Stable b) : (s.read a).2.peek b = s.peek b :=
  (quiet_cpuRead (.refl s.dev) s.env a).peek (s := s) (t := (s.read a).2) rfl hb

/-- Settles O8: ticks and reads are quiet, so `Peek` shows the same before and after. -/
theorem readCycle : Obligations.ReadCycle := by
  unfold Obligations.ReadCycle
  exact fun a s => ⟨s.read_cpu a, s.read_keepsMemory a, s.read_value_stable, fun _ => s.read_peek_stable a⟩

/-! ### O9: write cycles -/

/-- OAMDATA stores at OAMADDR (R306). -/
theorem busStoreLoc_oamData (e : Env) (d : Devices) :
    busStoreLoc e 0x2004#16 d = some ⟨.oam, d.ppu.oamAddr.toNat⟩ := rfl

/-- OAM DMA writes to 0x2004, so its only memory is OAM (R280). -/
theorem State.dmaBytes_byteAt (v : Byte) (n : Nat) (s : State) {l : Location} (hl : l.kind ≠ .oam) :
    (s.dmaBytes v n).byteAt l = s.byteAt l := by
  induction n generalizing s with
  | zero => rfl
  | succ n ih =>
    refine (ih _).trans (Memories.byteAt_storeAt_other s.mem ?_ _)
    rw [busStoreLoc_oamData]
    rintro ⟨⟩
    exact hl rfl

theorem State.oamDma_byteAt (v : Byte) (s : State) {l : Location} (hl : l.kind ≠ .oam) :
    (s.oamDma v).byteAt l = s.byteAt l := by
  unfold State.oamDma
  refine (State.dmaBytes_byteAt v 256 _ hl).trans ?_
  split <;> rfl

theorem State.write_mem_dma (v : Byte) (s : State) : (s.write 0x4014#16 v).mem = (s.tick.oamDma v).mem := rfl

/-- Any other write is one store. -/
theorem State.write_mem_plain {a : Word} (ha : a ≠ 0x4014#16) (v : Byte) (s : State) :
    (s.write a v).mem = s.mem.storeAt (busStoreLoc s.tick.env a s.tick.dev) v := by
  simp only [State.write, State.recordPoll_mem, State.latchData_mem, State.busWrite, if_neg ha]
  rfl

theorem State.write_byteAt_other {a : Word} (v : Byte) (s : State) {l : Location} (hl : ¬s.WritesTo a l) :
    (s.write a v).byteAt l = s.byteAt l := by
  unfold State.WritesTo at hl
  split at hl
  case isTrue ha =>
    subst ha
    unfold State.byteAt
    rw [State.write_mem_dma]
    exact State.oamDma_byteAt v s.tick hl
  case isFalse ha =>
    unfold State.byteAt
    rw [State.write_mem_plain ha]
    exact Memories.byteAt_storeAt_other s.mem hl v

theorem State.write_byteAt_self {a : Word} (ha : a ≠ 0x4014#16) (v : Byte) {s : State} (hs : s.MemoryOk)
    {l : Location} (hl : s.WritesTo a l) : (s.write a v).byteAt l = l.kept v := by
  unfold State.WritesTo at hl
  rw [if_neg ha] at hl
  unfold State.byteAt
  rw [State.write_mem_plain ha, hl]
  exact Memories.byteAt_store_self hs.1 l v

theorem State.write_keepsAllBut (a : Word) (v : Byte) (s : State) : KeepsAllBut s a s (s.write a v) :=
  ⟨fun _ => s.write_byteAt_other v, s.write_cart a v, s.write_params a v⟩

/-- Settles O9: a write is one store at the decoded location, or at 0x4014 a run of stores to OAM. -/
theorem writeCycle : Obligations.WriteCycle := by
  unfold Obligations.WriteCycle
  exact fun a v s =>
    ⟨State.write_cpu a v s, s.write_keepsAllBut a v, fun hs ha _ => State.write_byteAt_self ha v hs⟩

/-! ### O10: the mirrors of the internal RAM -/

/-- Settles O10: both addresses are decoded modulo 0x800, so the read sees the written cell exactly when they agree. -/
theorem ramMirrors : Obligations.RamMirrors := by
  unfold Obligations.RamMirrors
  intro a b v s hs ha hb
  obtain ⟨hram, _⟩ := (Memories.wf_iff s.mem).1 hs.1
  have hbRam := busTarget_below_2000 hb
  rw [State.read_value_ram hbRam, State.read_value_ram hbRam, State.write_mem_ram v s (busTarget_below_2000 ha)]
  split
  case isTrue hsame =>
    rw [hsame]
    exact Memory.read_write_self hram _ v
  case isFalse hother => exact Memory.read_write_other _ (Ne.symm hother) v

end Sys2Proof.Machine
end

section
/-! The round trips of the encoding (30_encoding.md R100 to R109). What the decoder answers is said once, in
`decode_eq_ok_iff`: the opcode byte alone names the instruction, and the operand is whatever fits it. The rest is that
opcode bytes and well-formed instructions correspond one to one. -/

namespace Sys2Proof

/-! ### Opcode bytes and instructions (R105, R109) -/

/-- The opcode byte of a row of the table is decoded to that row. -/
theorem decodeOpcode_opcodeByte {i : Instr} (h : i.wf = true) : decodeOpcode (opcodeByte i) = i := by
  cases i with
  | lda m => exact Laws.Opcode.lda m h
  | ldx m => exact Laws.Opcode.ldx m h
  | ldy m => exact Laws.Opcode.ldy m h
  | sta m => exact Laws.Opcode.sta m h
  | stx m => exact Laws.Opcode.stx m h
  | sty m => exact Laws.Opcode.sty m h
  | tax => exact Laws.Opcode.tax h
  | tay => exact Laws.Opcode.tay h
  | txa => exact Laws.Opcode.txa h
  | tya => exact Laws.Opcode.tya h
  | tsx => exact Laws.Opcode.tsx h
  | txs => exact Laws.Opcode.txs h
  | pha => exact Laws.Opcode.pha h
  | php => exact Laws.Opcode.php h
  | pla => exact Laws.Opcode.pla h
  | plp => exact Laws.Opcode.plp h
  | ora m => exact Laws.Opcode.ora m h
  | and m => exact Laws.Opcode.and m h
  | eor m => exact Laws.Opcode.eor m h
  | adc m => exact Laws.Opcode.adc m h
  | sbc m => exact Laws.Opcode.sbc m h
  | cmp m => exact Laws.Opcode.cmp m h
  | cpx m => exact Laws.Opcode.cpx m h
  | cpy m => exact Laws.Opcode.cpy m h
  | bit m => exact Laws.Opcode.bit m h
  | asl m => exact Laws.Opcode.asl m h
  | lsr m => exact Laws.Opcode.lsr m h
  | rol m => exact Laws.Opcode.rol m h
  | ror m => exact Laws.Opcode.ror m h
  | inc m => exact Laws.Opcode.inc m h
  | dec m => exact Laws.Opcode.dec m h
  | inx => exact Laws.Opcode.inx h
  | iny => exact Laws.Opcode.iny h
  | dex => exact Laws.Opcode.dex h
  | dey => exact Laws.Opcode.dey h
  | jmp m => exact Laws.Opcode.jmp m h
  | jsr => exact Laws.Opcode.jsr h
  | rts => exact Laws.Opcode.rts h
  | rti => exact Laws.Opcode.rti h
  | brk => exact Laws.Opcode.brk h
  | bpl => exact Laws.Opcode.bpl h
  | bmi => exact Laws.Opcode.bmi h
  | bvc => exact Laws.Opcode.bvc h
  | bvs => exact Laws.Opcode.bvs h
  | bcc => exact Laws.Opcode.bcc h
  | bcs => exact Laws.Opcode.bcs h
  | bne => exact Laws.Opcode.bne h
  | beq => exact Laws.Opcode.beq h
  | clc => exact Laws.Opcode.clc h
  | sec => exact Laws.Opcode.sec h
  | cli => exact Laws.Opcode.cli h
  | sei => exact Laws.Opcode.sei h
  | clv => exact Laws.Opcode.clv h
  | cld => exact Laws.Opcode.cld h
  | sed => exact Laws.Opcode.sed h
  | nop => exact Laws.Opcode.nop h
  | slo m => exact Laws.Opcode.slo m h
  | rla m => exact Laws.Opcode.rla m h
  | sre m => exact Laws.Opcode.sre m h
  | rra m => exact Laws.Opcode.rra m h
  | dcp m => exact Laws.Opcode.dcp m h
  | isc m => exact Laws.Opcode.isc m h
  | sax m => exact Laws.Opcode.sax m h
  | lax m => exact Laws.Opcode.lax m h
  | anc op => exact Laws.Opcode.anc op h
  | alr => exact Laws.Opcode.alr h
  | arr => exact Laws.Opcode.arr h
  | axs => exact Laws.Opcode.axs h
  | ane => exact Laws.Opcode.ane h
  | lxa => exact Laws.Opcode.lxa h
  | sbcUnofficial => exact Laws.Opcode.sbcUnofficial h
  | sha m => exact Laws.Opcode.sha m h
  | shx => exact Laws.Opcode.shx h
  | shy => exact Laws.Opcode.shy h
  | shs => exact Laws.Opcode.shs h
  | las => exact Laws.Opcode.las h
  | nopImplied op => exact Laws.Opcode.nopImplied op h
  | nopImmediate op => exact Laws.Opcode.nopImmediate op h
  | nopZeropage op => exact Laws.Opcode.nopZeropage op h
  | nopZeropageX op => exact Laws.Opcode.nopZeropageX op h
  | nopAbsolute => exact Laws.Opcode.nopAbsolute h
  | nopAbsoluteX op => exact Laws.Opcode.nopAbsoluteX op h
  | jam op => exact Laws.Opcode.jam op h

/-- The opcode matrix holds rows of the table only: the 256 opcode bytes, each checked. -/
theorem decodeOpcode_wf : ∀ op : Byte, (decodeOpcode op).wf = true := by decide +kernel

/-- No two opcode bytes are decoded to one instruction: the 256 opcode bytes, each checked. -/
theorem opcodeByte_decodeOpcode : ∀ op : Byte, opcodeByte (decodeOpcode op) = op := by decide +kernel

/-- No instruction is longer than three bytes (R100): the 256 opcode bytes, each checked. -/
theorem operandBytes_decodeOpcode_le : ∀ op : Byte, (decodeOpcode op).operandBytes ≤ 2 := by decide +kernel

/-! ### Operands (R101, R103) -/

/-- The bytes of a word in stream order are put together to the word again. -/
theorem addr16_extract (w : Word) : addr16 (w.extractLsb' 0 8) (w.extractLsb' 8 8) = w :=
  (BitVec.extractLsb'_append_extractLsb'_eq_extractLsb' (by decide)).trans BitVec.extractLsb'_eq_self

/-- Two stream bytes are the bytes of the word they are put together to. -/
theorem bytes_addr16 (ll hh : Byte) : (Operand.word (addr16 ll hh)).bytes = [ll, hh] := by
  simp only [Operand.bytes, addr16, BitVec.extractLsb'_append_eq_right, BitVec.extractLsb'_append_eq_left]

/-- A fitting operand has as many bytes as its instruction asks for. -/
theorem Operand.length_bytes {o : Operand} {i : Instr} (h : o.fits i = true) : o.bytes.length = i.operandBytes := by
  cases o <;> exact (beq_iff_eq.mp h).symm

/-! ### What the decoder answers -/

/-- An opcode byte before a fitting operand is decoded to the instruction of the opcode byte and that operand. -/
theorem decode_of_fits {op : Byte} {o : Operand} (h : o.fits (decodeOpcode op) = true) (rest : List Byte) :
    decode (op :: (o.bytes ++ rest)) = .ok ⟨decodeOpcode op, o, rest⟩ := by
  have hn := Operand.length_bytes h
  cases o <;> simp [decode, Operand.bytes, addr16_extract, ← hn]

/-- The decoder's answer, both ways: an opcode byte, an operand that fits its instruction, and the rest. -/
theorem decode_eq_ok_iff {bytes : List Byte} {d : Decoded} :
    decode bytes = .ok d ↔
      ∃ op, d.instr = decodeOpcode op ∧ d.operand.fits d.instr = true ∧ bytes = op :: (d.operand.bytes ++ d.rest) := by
  constructor
  · intro h
    match bytes with
    | op :: tail =>
      refine ⟨op, ?_⟩
      simp only [decode] at h
      split at h
      case h_1 hn =>
        cases h
        exact ⟨rfl, beq_iff_eq.mpr hn, rfl⟩
      case h_2 b rest hn =>
        cases h
        exact ⟨rfl, beq_iff_eq.mpr hn, rfl⟩
      case h_3 ll hh rest hn =>
        cases h
        exact ⟨rfl, beq_iff_eq.mpr hn, by rw [bytes_addr16]; rfl⟩
      case h_4 => cases h
  · rintro ⟨op, hi, hfits, rfl⟩
    obtain ⟨i, o, rest⟩ := d
    subst hi
    exact decode_of_fits hfits rest

/-- Three bytes always hold an instruction: that of the first. -/
theorem exists_decode_three (op b1 b2 : Byte) (rest : List Byte) :
    ∃ d, decode (op :: b1 :: b2 :: rest) = .ok d ∧ d.instr = decodeOpcode op := by
  have hle := operandBytes_decodeOpcode_le op
  simp only [decode]
  interval_cases (decodeOpcode op).operandBytes
  · exact ⟨_, rfl, rfl⟩
  · exact ⟨_, rfl, rfl⟩
  · exact ⟨_, rfl, rfl⟩

/-- A word of the table is read as the instruction of its lowest byte. -/
theorem decodeTableWord_eq (nbits w : Nat) :
    decodeTableWord nbits w = some (decodeOpcode (BitVec.ofNat 8 (w % 2 ^ nbits))) := by
  obtain ⟨d, hd, hi⟩ := exists_decode_three (BitVec.ofNat 8 (w % 2 ^ nbits)) (BitVec.ofNat 8 (w % 2 ^ nbits / 256))
    (BitVec.ofNat 8 (w % 2 ^ nbits / 65536)) []
  simp only [decodeTableWord, tableWordBytes, hd, hi]

/-! ### O2, O3, O1 -/

/-- Settles O2: the opcode byte is decoded to the instruction, and what fits it is taken as the operand. -/
theorem decodeEncodeRoundTrip : Obligations.DecodeEncodeRoundTrip := by
  unfold Obligations.DecodeEncodeRoundTrip
  intro i o rest hwf hfits
  have hop := decodeOpcode_opcodeByte hwf
  constructor
  · exact decode_eq_ok_iff.mpr ⟨opcodeByte i, hop.symm, hfits, rfl⟩
  · rw [encode, List.length_cons, Operand.length_bytes hfits, Nat.add_comm]

/-- Settles O3: every opcode byte is the opcode byte of a well-formed instruction, the one it is decoded to. -/
theorem encodeDecodeRoundTrip : Obligations.EncodeDecodeRoundTrip := by
  unfold Obligations.EncodeDecodeRoundTrip
  constructor
  · intro bytes d h
    obtain ⟨op, hi, hfits, hbytes⟩ := decode_eq_ok_iff.mp h
    have hop : opcodeByte d.instr = op := hi ▸ opcodeByte_decodeOpcode op
    exact ⟨hi ▸ decodeOpcode_wf op, hfits, by rw [hbytes, encode, hop]; rfl⟩
  · intro op b1 b2 rest
    obtain ⟨d, hd, _⟩ := exists_decode_three op b1 b2 rest
    exact ⟨d, hd⟩

/-- Settles O1: each word is read as the instruction of its lowest byte, looked up in the opcode matrix. -/
theorem tableWordsDecode : Obligations.TableWordsDecode := by
  unfold Obligations.TableWordsDecode
  simp only [decodeTableWord_eq]
  decide

end Sys2Proof
end

section
/-! The addressing modes (31_addressing_modes.md): the arithmetic of indexing, and what the modes' cycles read from
stable memory. Their cycles are reads, and a read changes nothing that `Peek` shows there. -/

namespace Sys2Proof.Machine

/-! ### Bytes and words as numbers (00_scope.md R10, R13) -/

@[simp] theorem toNat_zext (b : Byte) : (zext b).toNat = b.toNat :=
  BitVec.toNat_setWidth_of_le (by decide)

@[simp] theorem toNat_lo (w : Word) : (lo w).toNat = w.toNat % 256 := by
  simp [lo, BitVec.extractLsb'_toNat]

@[simp] theorem toNat_hi (w : Word) : (hi w).toNat = w.toNat / 256 := by
  have hw : w.toNat / 256 < 256 := Nat.div_lt_of_lt_mul w.isLt
  simp [hi, BitVec.extractLsb'_toNat, Nat.shiftRight_eq_div_pow, Nat.mod_eq_of_lt hw]

@[simp] theorem toNat_cat (h l : Byte) : (cat h l).toNat = h.toNat * 256 + l.toNat := by
  rw [cat, BitVec.toNat_append, ← Nat.shiftLeft_add_eq_or_of_lt l.isLt, Nat.shiftLeft_eq]

@[simp] theorem hi_cat (h l : Byte) : hi (cat h l) = h := by
  have hl := l.isLt
  refine BitVec.eq_of_toNat_eq ?_
  rw [toNat_hi, toNat_cat]
  omega

/-- Addresses in page 0 are internal RAM. -/
theorem stable_zext (b : Byte) : Stable (zext b) := by
  have hb := b.isLt
  left
  rw [toNat_zext]
  omega

/-! ### O13: indexing (R128, R134) -/

theorem toNat_uncarried (base : Word) (i : Byte) :
    (uncarried base i).toNat = base.toNat / 256 * 256 + (base.toNat % 256 + i.toNat) % 256 := by
  rw [uncarried, toNat_cat, toNat_hi, BitVec.toNat_add, toNat_lo]

theorem toNat_indexed (base : Word) (i : Byte) :
    (indexed base i).toNat = (base.toNat + i.toNat) % 65536 := by
  rw [indexed, BitVec.toNat_add, toNat_zext]

theorem pageCrossed_iff (base : Word) (i : Byte) :
    pageCrossed base i = true ↔ 0xFF < (lo base).toNat + i.toNat := decide_eq_true_iff

/-- The carry into the high byte is all that tells the two addresses apart. -/
theorem indexed_eq_uncarried (base : Word) (i : Byte) :
    indexed base i = if pageCrossed base i then uncarried base i + 0x100#16 else uncarried base i := by
  have hi8 := i.isLt
  have hcross := pageCrossed_iff base i
  rw [toNat_lo] at hcross
  refine BitVec.eq_of_toNat_eq ?_
  split
  case isTrue h =>
    have hlow := hcross.1 h
    rw [BitVec.toNat_add, toNat_indexed, toNat_uncarried]
    simp only [BitVec.toNat_ofNat]
    omega
  case isFalse h =>
    have hlow := mt hcross.2 h
    have hbase := base.isLt
    rw [toNat_indexed, toNat_uncarried]
    omega

/-- Settles O13: the low bytes' sum carries exactly when it exceeds 0xFF, and the un-carried address drops the carry. -/
theorem pageCrossing : Obligations.PageCrossing := by
  unfold Obligations.PageCrossing
  exact fun base i => ⟨pageCrossed_iff base i, indexed_eq_uncarried base i, hi_cat _ _⟩

/-! ### What a mode's cycles read -/

/-- `Peek` shows the same byte in `t` as in `s` at every stable address. -/
def State.SamePeek (s t : State) : Prop := ∀ a, Stable a → t.peek a = s.peek a

theorem State.SamePeek.refl (s : State) : s.SamePeek s := fun _ _ => rfl

section SamePeek
variable {s t : State} (h : s.SamePeek t)
include h

theorem State.SamePeek.read (a : Word) : s.SamePeek (t.read a).2 :=
  fun b hb => (t.read_peek_stable a hb).trans (h b hb)

theorem State.SamePeek.read_value {a : Word} (ha : Stable a) : (t.read a).1 = s.peek a :=
  (t.read_value_stable ha).trans (h a ha)

theorem State.SamePeek.fetch : s.SamePeek t.fetch.2 := h.read t.cpu.pc

theorem State.SamePeek.fetchWord : s.SamePeek t.fetchWord.2 := h.fetch.fetch

theorem State.SamePeek.readPointer (z : Byte) : s.SamePeek (t.readPointer z).2 := (h.read _).read _

/-- A pointer in page 0 is read as `Peek` shows it. -/
theorem State.SamePeek.readPointer_value (z : Byte) :
    (t.readPointer z).1 = s.peekWord (zext z) (zext (z + 1#8)) :=
  congrArg₂ cat ((h.read _).read_value (stable_zext _)) (h.read_value (stable_zext _))

theorem State.SamePeek.indexedAddr (m : AddrMode) : s.SamePeek (t.indexedAddr m).state := by
  cases m
  case indirectIndexed => exact h.fetch.readPointer _
  all_goals exact h.fetchWord

theorem State.SamePeek.effectiveAddr (m : AddrMode) : s.SamePeek (t.effectiveAddr m).2 := by
  cases m with
  | zeropage => exact h.fetch
  | zeropageX | zeropageY => exact h.fetch.read _
  | absolute => exact h.fetchWord
  | indexedIndirect => exact (h.fetch.read _).readPointer _
  | absoluteX => exact (h.indexedAddr .absoluteX).read _
  | absoluteY => exact (h.indexedAddr .absoluteY).read _
  | indirectIndexed => exact (h.indexedAddr .indirectIndexed).read _

end SamePeek

/-! ### O11: effective addresses -/

theorem State.fetch_value_stable (s : State) (hpc : Stable s.cpu.pc) : s.fetch.1 = s.peek s.cpu.pc :=
  s.read_value_stable hpc

theorem State.fetchWord_value_stable (s : State) (hpc : Stable s.cpu.pc) (hnext : Stable (s.cpu.pc + 1#16)) :
    s.fetchWord.1 = s.peekWord s.cpu.pc (s.cpu.pc + 1#16) :=
  congrArg₂ cat ((State.SamePeek.refl s).fetch.read_value hnext) (s.fetch_value_stable hpc)

/-- Settles O11: the operand bytes and the pointer in page 0 are read as `Peek` shows them before the instruction. -/
theorem effectiveAddresses : Obligations.EffectiveAddresses := by
  unfold Obligations.EffectiveAddresses
  intro s hpc hnext
  have hz := s.fetch_value_stable hpc
  have hbase := s.fetchWord_value_stable hpc hnext
  have hfetched := (State.SamePeek.refl s).fetch
  dsimp only
  rw [← hz, ← hbase]
  refine ⟨rfl, rfl, rfl, rfl, rfl, rfl, ?_, ?_⟩
  · exact (hfetched.read (zext s.fetch.1)).readPointer_value (s.fetch.1 + s.cpu.x)
  · exact congrArg (indexed · s.cpu.y) (hfetched.readPointer_value s.fetch.1)

/-! ### O12: the operand of the read class -/

/-- Where no page is crossed the one read is at the indexed address already; otherwise the second read is. -/
theorem IndexedAddr.readOperand_value (q : IndexedAddr) (hea : Stable (indexed q.base q.index)) :
    q.readOperand.1 = q.state.peek (indexed q.base q.index) := by
  have hq := State.SamePeek.refl q.state
  unfold IndexedAddr.readOperand
  dsimp only
  split
  case isTrue => exact (hq.read _).read_value hea
  case isFalse hsame =>
    rw [indexed_eq_uncarried, if_neg hsame] at hea ⊢
    exact hq.read_value hea

theorem State.loadMem_value (m : AddrMode) (s : State) (hea : Stable (s.effectiveAddr m).1) :
    (s.loadMem m).1 = s.peek (s.effectiveAddr m).1 := by
  have hs := State.SamePeek.refl s
  cases m
  case absoluteX | absoluteY | indirectIndexed =>
    exact (IndexedAddr.readOperand_value _ hea).trans (hs.indexedAddr _ _ hea)
  all_goals exact (hs.effectiveAddr _).read_value hea

/-- Settles O12: the class's last read is at the effective address, and the reads before it change nothing there. -/
theorem readOperand : Obligations.ReadOperand := by
  unfold Obligations.ReadOperand
  exact fun m s => ⟨s.loadMem_value m, s.fetch_value_stable⟩

end Sys2Proof.Machine
end

section
/-! The read-modify-write class (31_addressing_modes.md R135): one address, two writes, everything else unchanged. -/

namespace Sys2Proof.Machine

/-! ### A write cycle is one CPU cycle (50_bus.md R272, R275) -/

theorem dmcRefill_cycles (e : Env) (d : Devices) : (dmcRefill e d).cycles = d.cycles := by
  unfold dmcRefill
  split
  · exact (busRead_counters e _ d).1
  · rfl

/-- A tick is one cycle whether or not the DMC fetches in it. -/
theorem tick_cycles (e : Env) (d : Devices) : (tick e d).cycles = d.cycles + 1 := by
  have hdots : (ppuDot e (ppuDot e (ppuDot e { d with cycles := d.cycles + 1 }))).cycles = d.cycles + 1 :=
    (((sameOutside_ppuDot e _).trans (sameOutside_ppuDot e _)).trans (sameOutside_ppuDot e _)).1
  exact (dmcRefill_cycles e _).trans hdots

theorem ppuRegWrite_cycles (e : Env) (i : Nat) (v : Byte) (d : Devices) : (ppuRegWrite e i v d).cycles = d.cycles := by
  unfold ppuRegWrite ppuRegEffect
  split
  case h_6 =>
    unfold writeAddr
    dsimp only
    split <;> rfl
  all_goals rfl

theorem busWriteDevices_cycles (e : Env) (a : Word) (v : Byte) (d : Devices) :
    (busWriteDevices e a v d).cycles = d.cycles := by
  unfold busWriteDevices
  split
  · rfl
  · exact ppuRegWrite_cycles e _ v d
  · split
    · rfl
    · split
      · exact dmcRefill_cycles e _
      · split <;> rfl
  · rfl

/-- A write waits for no stall: away from OAM DMA it is one cycle, DMC idle or not. -/
theorem State.write_cycles {a : Word} (ha : a ≠ 0x4014#16) (v : Byte) (s : State) :
    (s.write a v).dev.cycles = s.dev.cycles + 1 := by
  have hplain : s.tick.busWrite a v = s.tick.busWritePlain a v := if_neg ha
  calc (s.write a v).dev.cycles = (s.tick.busWrite a v).dev.cycles := rfl
    _ = (busWriteDevices s.tick.env a v s.tick.dev).cycles := by rw [hplain]; rfl
    _ = s.tick.dev.cycles := busWriteDevices_cycles _ a v _
    _ = s.dev.cycles + 1 := tick_cycles s.env s.dev

/-! ### The twelve instructions -/

/-- A read-modify-write operation writes no register but A and P. -/
def RmwOp.WritesOnlyAP (op : RmwOp) : Prop := ∀ v c, (op v c).2 = { c with a := (op v c).2.a, p := (op v c).2.p }

theorem rmwOf_writesOnlyAP (f : Byte → Byte → AluResult) : (rmwOf f).WritesOnlyAP := fun _ _ => rfl

theorem rmwThenAlu_writesOnlyAP (f : Byte → Byte → AluResult) (g : Byte → Byte → Byte → AluResult) :
    (rmwThenAlu f g).WritesOnlyAP := fun _ _ => rfl

/-- The official read-modify-write instructions on memory (43_rmw.md R191 to R196). -/
def officialRmws (m : AddrMode) : List Instr :=
  [.asl (.mem m), .lsr (.mem m), .rol (.mem m), .ror (.mem m), .inc m, .dec m]

/-- The unofficial ones (46_unofficial.md R236 to R244). -/
def unofficialRmws (m : AddrMode) : List Instr := [.slo m, .rla m, .sre m, .rra m, .dcp m, .isc m]

theorem exec_officialRmw {m : AddrMode} {i : Instr} (hi : i ∈ officialRmws m) (s : State) :
    ∃ f, exec i s = .next (s.modify m (rmwOf f)) := by
  simp only [officialRmws, List.mem_cons, List.not_mem_nil, or_false] at hi
  rcases hi with rfl | rfl | rfl | rfl | rfl | rfl <;> exact ⟨_, rfl⟩

theorem exec_unofficialRmw {m : AddrMode} {i : Instr} (hi : i ∈ unofficialRmws m) (s : State) :
    ∃ f g, exec i s = .next (s.modify m (rmwThenAlu f g)) := by
  simp only [unofficialRmws, List.mem_cons, List.not_mem_nil, or_false] at hi
  rcases hi with rfl | rfl | rfl | rfl | rfl | rfl <;> exact ⟨_, _, rfl⟩

/-- Each of the twelve is the class's bus sequence around an operation on A and P. -/
theorem exec_memoryRmw {m : AddrMode} {i : Instr} (hi : i ∈ officialRmws m ++ unofficialRmws m) (s : State) :
    ∃ op : RmwOp, op.WritesOnlyAP ∧ exec i s = .next (s.modify m op) := by
  rcases List.mem_append.1 hi with hofficial | hunofficial
  · obtain ⟨f, hexec⟩ := exec_officialRmw hofficial s
    exact ⟨_, rmwOf_writesOnlyAP f, hexec⟩
  · obtain ⟨f, g, hexec⟩ := exec_unofficialRmw hunofficial s
    exact ⟨_, rmwThenAlu_writesOnlyAP f g, hexec⟩

/-! ### O29: the class's frame -/

/-- Only the two writes reach a memory. -/
theorem State.modify_byteAt_other (m : AddrMode) (op : RmwOp) (s : State) {l : Location}
    (hdummy : ¬((s.effectiveAddr m).2.read (s.effectiveAddr m).1).2.WritesTo (s.effectiveAddr m).1 l)
    (hwrite : ¬(s.beginModify m).state.WritesTo (s.effectiveAddr m).1 l) : (s.modify m op).byteAt l = s.byteAt l := by
  have haddr : (s.effectiveAddr m).2.mem = s.mem := (s.effectiveAddr_frame m).1
  calc (s.modify m op).byteAt l = (s.beginModify m).state.byteAt l := State.write_byteAt_other _ _ hwrite
    _ = ((s.effectiveAddr m).2.read (s.effectiveAddr m).1).2.byteAt l := State.write_byteAt_other _ _ hdummy
    _ = s.byteAt l := congrArg (Memories.byteAt · l) haddr

/-- The class takes the write class's cycles, one more for the read and one more for the second write. -/
theorem State.takes_modify (m : AddrMode) (op : RmwOp) (s : State) (hea : (s.effectiveAddr m).1 ≠ 0x4014#16) :
    Takes (writeCycles m + 2) s (s.modify m op) := by
  intro hidle
  have hread := ((takes_effectiveAddr m s).trans (takes_read (s.effectiveAddr m).1 _)).takes hidle
  have hdummy : (s.beginModify m).state.dev.cycles = _ := State.write_cycles hea _ _
  have hwrite : (s.modify m op).dev.cycles = (s.beginModify m).state.dev.cycles + 1 := State.write_cycles hea _ _
  have hpos : 0 < writeCycles m := by cases m <;> decide
  omega

/-- Settles O29: the class's bus sequence, once for all twelve instructions. -/
theorem readModifyWriteFrame : Obligations.ReadModifyWriteFrame := by
  unfold Obligations.ReadModifyWriteFrame
  intro m s i hi
  obtain ⟨op, hop, hexec⟩ := exec_memoryRmw hi s
  obtain ⟨-, hparams, hcart⟩ := s.beginModify_frame m
  refine ⟨s.modify m op, hexec, ?_, fun l => s.modify_byteAt_other m op, ?_, ?_, s.takes_modify m op⟩
  · rw [s.modify_cpu m op]
    exact hop _ _
  · exact (State.write_cart _ _ _).trans hcart
  · exact (State.write_params _ _ _).trans hparams

end Sys2Proof.Machine
end

section
/-! Loads and stores (40_load_store.md). A load is the read class's bus sequence with one change of the registers at its
end; a store is the write class's, whose write cycle holds OAM DMA when the address is 0x4014. -/

namespace Sys2Proof.Machine

/-! ### The read class: the operand's cycles, then the registers -/

/-- A read-class instruction: the cycles of its operand, then `f` on the operand and the registers. -/
def State.readThen (m : ReadMode) (f : Byte → Cpu → Cpu) (s : State) : State :=
  { (s.load m).2 with cpu := f (s.load m).1 (s.load m).2.cpu }

theorem State.readThen_cpu (m : ReadMode) (f : Byte → Cpu → Cpu) (s : State) :
    (s.readThen m f).cpu = f (s.load m).1 (s.cpu.advance m.operandBytes) :=
  congrArg (f (s.load m).1) (s.load_cpu m)

theorem State.readThen_keepsMemory (m : ReadMode) (f : Byte → Cpu → Cpu) (s : State) :
    KeepsMemory s (s.readThen m f) := by
  obtain ⟨hmem, hparams, hcart⟩ := s.load_frame m
  exact ⟨fun l => congrArg (Memories.byteAt · l) hmem, hcart, hparams⟩

theorem State.takes_readThen (m : ReadMode) (f : Byte → Cpu → Cpu) (s : State) :
    Takes (s.operandCycles m) s (s.readThen m f) :=
  ((takes_load m s).of_dev rfl).takes

theorem setsNZ_setNZ (v p : Byte) : SetsNZ v p (setNZ v p) := by
  refine ⟨bitOf_setNZ flagN (by decide) v p, bitOf_setNZ flagZ (by decide) v p, fun k hk hother => ?_⟩
  simp only [List.mem_cons, List.not_mem_nil, or_false, not_or] at hother
  obtain ⟨hN, hZ⟩ := hother
  rw [bitOf_setNZ k hk, if_neg hN, if_neg hZ]

/-! ### O19: loads -/

/-- `put` on the operand and the registers, with N and Z from the operand. -/
def putNZ (put : Byte → Cpu → Cpu) : Byte → Cpu → Cpu := fun v c => { put v c with p := setNZ v c.p }

/-- What every load does: `put` says which registers get the operand. -/
theorem exec_load {i : Instr} {m : ReadMode} {put : Byte → Cpu → Cpu} {s : State}
    (hexec : exec i s = .next (s.readThen m (putNZ put))) :
    ∃ t, exec i s = .next t ∧
      t.cpu = { put (s.load m).1 (s.cpu.advance m.operandBytes) with p := t.cpu.p } ∧
      SetsNZ (s.load m).1 s.cpu.p t.cpu.p ∧ KeepsMemory s t ∧ Takes (s.operandCycles m) s t := by
  have hcpu := s.readThen_cpu m (putNZ put)
  refine ⟨_, hexec, ?_, ?_, s.readThen_keepsMemory m _, s.takes_readThen m _⟩
  · rw [hcpu]
    rfl
  · rw [hcpu]
    exact setsNZ_setNZ _ _

/-- Settles O19: the three loads are one bus sequence and differ in the register that gets the operand. -/
theorem loads : Obligations.Loads := by
  unfold Obligations.Loads
  refine ⟨by decide, by decide, fun m s => ⟨?_, ?_, ?_⟩⟩
  · exact exec_load (m := m) (put := fun v c => { c with a := v }) rfl
  · exact exec_load (m := m) (put := fun v c => { c with x := v }) rfl
  · exact exec_load (m := m) (put := fun v c => { c with y := v }) rfl

/-! ### The cycles of OAM DMA (50_bus.md R280) -/

theorem takes_tick (s : State) : TakesIdle 1 s s.tick := by
  rintro ⟨hstall, hbytes⟩
  obtain ⟨hcycles, hstall', hbytes'⟩ := tick_idle s.env s.dev hbytes
  exact ⟨hcycles, hstall'.trans hstall, hbytes'⟩

theorem takes_latchData (v : Byte) (s : State) : TakesIdle 0 s (s.latchData v) := fun hidle => ⟨rfl, hidle⟩

/-- OAMDATA is a register of the PPU: writing it leaves the cycle counter and the DMC alone. -/
theorem takes_busWritePlain_oamData (v : Byte) (s : State) : TakesIdle 0 s (s.busWritePlain 0x2004#16 v) :=
  fun hidle => ⟨rfl, hidle⟩

/-- One byte of OAM DMA: a read cycle and a write cycle. -/
theorem takes_dmaByte (a : Word) (s : State) : TakesIdle 2 s (s.dmaByte a) :=
  ((((takes_read a s).of_dev rfl).trans (takes_tick _)).trans (takes_busWritePlain_oamData _ _)).trans
    (takes_latchData _ _)

theorem takes_dmaBytes (v : Byte) (n : Nat) (s : State) : TakesIdle (2 * n) s (s.dmaBytes v n) := by
  induction n generalizing s with
  | zero => exact .refl s
  | succ n ih =>
    have hbyte := (takes_dmaByte ((v.setWidth 16 <<< 8) ||| BitVec.ofNat 16 (255 - n)) s).trans (ih _)
    rwa [show 2 + 2 * n = 2 * (n + 1) by omega] at hbyte

/-- The halt cycle, the alignment cycle of an odd start, and 256 pairs. -/
theorem takes_oamDma (v : Byte) (s : State) :
    TakesIdle (if s.dev.cycles % 2 = 1 then 514 else 513) s (s.oamDma v) := by
  unfold State.oamDma
  split
  case isTrue => exact ((takes_tick s).trans (takes_tick _)).trans (takes_dmaBytes v 256 _)
  case isFalse => exact (takes_tick s).trans (takes_dmaBytes v 256 _)

/-- The write cycle to 0x4014 is the write's own cycle and the DMA. -/
theorem takes_write_oamDma (v : Byte) (s : State) :
    TakesIdle (1 + if (s.dev.cycles + 1) % 2 = 1 then 514 else 513) s (s.write 0x4014#16 v) := by
  have htick : s.tick.dev.cycles = s.dev.cycles + 1 := tick_cycles s.env s.dev
  have hdma := ((takes_tick s).trans (takes_oamDma v s.tick)).trans (takes_latchData v _)
  rw [htick] at hdma
  exact hdma.of_dev rfl

/-! ### O20: stores -/

/-- The address cycles store nothing, so the write's frame is the store's. -/
theorem State.store_keepsAllBut (m : AddrMode) (v : Byte) (s : State) :
    KeepsAllBut (s.effectiveAddr m).2 (s.effectiveAddr m).1 s (s.store m v) := by
  obtain ⟨-, hparams, hcart⟩ := s.store_frame m v
  have hmem : (s.effectiveAddr m).2.mem = s.mem := (s.effectiveAddr_frame m).1
  exact ⟨fun l hl => (State.write_byteAt_other v _ hl).trans (congrArg (Memories.byteAt · l) hmem), hcart, hparams⟩

theorem State.effectiveAddr_memoryOk (m : AddrMode) {s : State} (hs : s.MemoryOk) : (s.effectiveAddr m).2.MemoryOk :=
  ((Runs.refl s).effectiveAddr m).keeps (fun _ _ => Act.keeps_memoryOk) hs

theorem State.takes_store (m : AddrMode) (v : Byte) (s : State) (hea : (s.effectiveAddr m).1 ≠ 0x4014#16) :
    Takes (writeCycles m) s (s.store m v) := by
  intro hidle
  have haddr := (takes_effectiveAddr m s).takes hidle
  have hwrite : (s.store m v).dev.cycles = (s.effectiveAddr m).2.dev.cycles + 1 := State.write_cycles hea v _
  have hpos : 0 < writeCycles m := by cases m <;> decide
  omega

/-- The DMA's alignment goes by the number of the store's last cycle. -/
theorem State.takes_store_oamDma (m : AddrMode) (v : Byte) (s : State) (hea : (s.effectiveAddr m).1 = 0x4014#16) :
    Takes (writeCycles m + if (s.dev.cycles + writeCycles m) % 2 = 1 then 514 else 513) s (s.store m v) := by
  intro hidle
  obtain ⟨haddr, haddrIdle⟩ := takes_effectiveAddr m s hidle
  have hdma := (takes_write_oamDma v (s.effectiveAddr m).2).takes haddrIdle
  rw [← hea] at hdma
  have hpos : 0 < writeCycles m := by cases m <;> decide
  have hlast : (s.effectiveAddr m).2.dev.cycles + 1 = s.dev.cycles + writeCycles m := by omega
  rw [hlast] at hdma
  have hstore : (s.store m v).dev.cycles = _ := hdma
  omega

/-- The four store instructions, each with the byte it stores. -/
theorem exec_store {m : AddrMode} {s : State} {i : Instr} {v : Byte}
    (hi : (i, v) ∈ [(Instr.sta m, s.cpu.a), (.stx m, s.cpu.x), (.sty m, s.cpu.y), (.sax m, s.cpu.a &&& s.cpu.x)]) :
    exec i s = .next (s.store m v) := by
  simp only [List.mem_cons, Prod.mk.injEq, List.not_mem_nil, or_false] at hi
  rcases hi with ⟨rfl, rfl⟩ | ⟨rfl, rfl⟩ | ⟨rfl, rfl⟩ | ⟨rfl, rfl⟩ <;> rfl

/-- Settles O20: the four instructions are the mode's address cycles and one write of their byte. -/
theorem stores : Obligations.Stores := by
  unfold Obligations.Stores
  refine ⟨by decide, by decide, fun m s i v hi => ?_⟩
  refine ⟨s.store m v, exec_store hi, (s.store_frame m v).1, s.store_keepsAllBut m v, ?_, s.takes_store m v, ?_⟩
  · exact fun hs hea l => State.write_byteAt_self hea v (s.effectiveAddr_memoryOk m hs)
  · exact fun hea => ⟨congrArg (fun a => (s.effectiveAddr m).2.write a v) hea, s.takes_store_oamDma m v hea⟩

end Sys2Proof.Machine
end

section
/-! Register transfers and the stack instructions (41_transfer_stack.md R160 to R170): the dummy read at PC, then a
register, a push, or a pull. -/

namespace Sys2Proof.Machine

/-! ### O22: transfers (R161 to R166) -/

/-- A one-byte instruction on the registers alone: the dummy read at PC, then the registers are `c` (R121). -/
def State.dummyFetchThen (c : Cpu) (s : State) : State := { s.dummyFetch with cpu := c }

theorem State.dummyFetchThen_keepsMemory (c : Cpu) (s : State) : KeepsMemory s (s.dummyFetchThen c) :=
  s.read_keepsMemory s.cpu.pc

theorem State.takes_dummyFetchThen (c : Cpu) (s : State) : Takes 1 s (s.dummyFetchThen c) :=
  ((takes_dummyFetch s).of_dev rfl).takes

/-- The five transfers that set N and Z, each with its source and its destination. -/
theorem exec_transferNZ {s : State} {i : Instr} {v : Byte} {reg : Byte → Cpu}
    (hi : (i, v, reg) ∈ [(Instr.tax, s.cpu.a, fun b => { s.cpu with x := b }),
      (.tay, s.cpu.a, fun b => { s.cpu with y := b }), (.txa, s.cpu.x, fun b => { s.cpu with a := b }),
      (.tya, s.cpu.y, fun b => { s.cpu with a := b }), (.tsx, s.cpu.s, fun b => { s.cpu with x := b })]) :
    exec i s = .next (s.dummyFetchThen { reg v with p := setNZ v s.cpu.p }) := by
  simp only [List.mem_cons, Prod.mk.injEq, List.not_mem_nil, or_false] at hi
  rcases hi with ⟨rfl, rfl, rfl⟩ | ⟨rfl, rfl, rfl⟩ | ⟨rfl, rfl, rfl⟩ | ⟨rfl, rfl, rfl⟩ | ⟨rfl, rfl, rfl⟩ <;> rfl

theorem exec_txs (s : State) : exec .txs s = .next (s.dummyFetchThen { s.cpu with s := s.cpu.x }) := rfl

/-- Settles O22: every transfer is one dummy read and one change of the registers; TXS's leaves P out. -/
theorem transfers : Obligations.Transfers := by
  unfold Obligations.Transfers
  refine ⟨by decide, fun s => ⟨fun i v reg hi => ?_, ?_⟩⟩
  · exact ⟨_, exec_transferNZ hi, rfl, setsNZ_setNZ v s.cpu.p, s.dummyFetchThen_keepsMemory _,
      s.takes_dummyFetchThen _⟩
  · exact ⟨_, exec_txs s, rfl, s.dummyFetchThen_keepsMemory _, s.takes_dummyFetchThen _⟩

/-! ### O23: pushes (R167, R168) -/

/-- A push is one store, at the stack pointer's byte of page 1. -/
theorem State.push_mem_eq_store (v : Byte) (s : State) :
    (s.push v).mem = s.mem.store ⟨.ram, 0x100 + s.cpu.s.toNat⟩ v :=
  s.push_mem v

theorem State.push_stackByte_self (v : Byte) {s : State} (hs : s.mem.wf = true) :
    (s.push v).stackByte s.cpu.s = v := by
  unfold State.stackByte State.ramByte State.byteAt
  rw [s.push_mem_eq_store v]
  exact Memories.byteAt_store_self hs _ v

theorem State.push_keepsAllButStack (v : Byte) (s : State) : KeepsAllButStack [s.cpu.s] s (s.push v) := by
  refine ⟨fun l hl => ?_, s.push_cart v, s.push_params v⟩
  unfold State.byteAt
  rw [s.push_mem_eq_store v]
  exact Memories.byteAt_store_other s.mem (hl s.cpu.s List.mem_cons_self) v

/-- What every push instruction does: the dummy read at PC changes neither memory nor registers, so `v` goes where the
instruction's own S points. -/
theorem exec_push {i : Instr} {v : Byte} {s : State} (hs : s.MemoryOk) (hexec : exec i s = .next (s.dummyFetch.push v)) :
    ∃ t, exec i s = .next t ∧ t.cpu = { s.cpu with s := s.cpu.s - 1#8 } ∧ t.stackByte s.cpu.s = v ∧
      KeepsAllButStack [s.cpu.s] s t ∧ Takes 2 s t := by
  refine ⟨_, hexec, s.dummyFetch.push_cpu v, ?_, ?_, ?_⟩
  · exact State.push_stackByte_self (s := s.dummyFetch) v hs.1
  · exact s.dummyFetch.push_keepsAllButStack v
  · exact ((takes_dummyFetch s).trans (takes_push v _)).takes

/-- Settles O23: PHA and PHP are the same push and differ in the byte. -/
theorem pushes : Obligations.Pushes := by
  unfold Obligations.Pushes
  exact ⟨by decide, fun s hs => ⟨exec_push hs rfl, exec_push hs rfl⟩⟩

/-! ### O24: pulls (R169, R170) -/

/-- Reading at the stack pointer returns page 1's byte there, whatever the devices do in the cycle. -/
theorem State.readStack_value (s : State) : s.readStack.1 = s.stackByte s.cpu.s :=
  s.read_value_ram (busTarget_stackAddr s.cpu.s)

/-- The cycles of a pull instruction: the dummy reads at PC and at S, then the read at S + 1. -/
def State.pull (s : State) : Byte × State := s.dummyFetch.stackStep.readStack

theorem State.pull_value (s : State) : s.pull.1 = s.stackByte (s.cpu.s + 1#8) := s.dummyFetch.stackStep.readStack_value

/-- A pull instruction: its cycles, then `f` on the byte and the registers. -/
def State.pullThen (f : Byte → Cpu → Cpu) (s : State) : State := { s.pull.2 with cpu := f s.pull.1 s.pull.2.cpu }

theorem State.pullThen_cpu (f : Byte → Cpu → Cpu) (s : State) :
    (s.pullThen f).cpu = f (s.stackByte (s.cpu.s + 1#8)) { s.cpu with s := s.cpu.s + 1#8 } :=
  congrArg (fun b => f b { s.cpu with s := s.cpu.s + 1#8 }) s.pull_value

theorem State.pullThen_keepsMemory (f : Byte → Cpu → Cpu) (s : State) : KeepsMemory s (s.pullThen f) :=
  ⟨fun _ => rfl, rfl, rfl⟩

theorem State.takes_pullThen (f : Byte → Cpu → Cpu) (s : State) : Takes 3 s (s.pullThen f) :=
  ((((takes_dummyFetch s).trans (takes_stackStep _)).trans (takes_readStack _)).of_dev rfl).takes

/-- PLA (R169). -/
theorem exec_pla (s : State) : exec .pla s = .next (s.pullThen (putNZ fun v c => { c with a := v })) := rfl

/-- PLP (R170). -/
theorem exec_plp (s : State) : exec .plp s = .next (s.pullThen fun v c => { c with p := pulledStatus v }) := rfl

/-- Settles O24: PLA and PLP are the same three cycles and differ in the register that gets the byte. -/
theorem pulls : Obligations.Pulls := by
  unfold Obligations.Pulls
  refine ⟨by decide, fun s => ⟨?_, ?_⟩⟩
  · have hcpu := s.pullThen_cpu (putNZ fun v c => { c with a := v })
    refine ⟨_, exec_pla s, ?_, ?_, s.pullThen_keepsMemory _, s.takes_pullThen _⟩
    · rw [hcpu]
      rfl
    · rw [hcpu]
      exact setsNZ_setNZ _ _
  · exact ⟨_, exec_plp s, s.pullThen_cpu _, s.pullThen_keepsMemory _, s.takes_pullThen _⟩

end Sys2Proof.Machine
end

section
/-! Logic, arithmetic, compares and BIT (42_alu.md R176 to R186): the read class's bus sequence, then a function of A or
of the index registers, the operand and P. -/

namespace Sys2Proof.Machine

/-! ### The flags an operation keeps -/

theorem FlagsKept.refl (ks : List Nat) (p : Byte) : FlagsKept ks p p := fun _ _ _ => rfl

/-- Setting a listed flag keeps the others. -/
theorem FlagsKept.setFlag {ks : List Nat} {p q : Byte} (h : FlagsKept ks p q) {k : Nat} (b : Bool)
    (hk : k < 8 := by decide) (hmem : k ∈ ks := by decide) : FlagsKept ks p (setFlag k b q) := by
  intro j hj hother
  have hjk : j ≠ k := fun heq => hother (heq ▸ hmem)
  rw [bitOf_setFlag k j hk hj, if_neg hjk, h j hj hother]

theorem FlagsKept.setNZ {ks : List Nat} {p q : Byte} (h : FlagsKept ks p q) (v : Byte)
    (hN : flagN ∈ ks := by decide) (hZ : flagZ ∈ ks := by decide) : FlagsKept ks p (setNZ v q) :=
  (h.setFlag (v == 0#8) (hmem := hZ)).setFlag (bitOf v 7) (hmem := hN)

/-! ### O25: logic (R177 to R179) -/

/-- Result and status of an operation on A, the operand and P go to A and P. -/
def accumulate (op : Byte → Byte → Byte → AluResult) : Byte → Cpu → Cpu := fun v c =>
  { c with a := (op c.a v c.p).value, p := (op c.a v c.p).p }

theorem State.readThen_accumulate_cpu (m : ReadMode) (op : Byte → Byte → Byte → AluResult) (s : State) :
    (s.readThen m (accumulate op)).cpu =
      { s.cpu with
        a := (op s.cpu.a (s.load m).1 s.cpu.p).value, p := (op s.cpu.a (s.load m).1 s.cpu.p).p,
        pc := s.cpu.pc + BitVec.ofNat 16 m.operandBytes } :=
  s.readThen_cpu m (accumulate op)

/-- What every logic instruction does: `f` says which bitwise operation it is. -/
theorem exec_logic {i : Instr} {m : ReadMode} {f : Byte → Byte → Byte} {s : State}
    (hexec : exec i s = .next (s.readThen m (accumulate fun a v p => resultNZ (f a v) p))) :
    ∃ t, exec i s = .next t ∧
      t.cpu = { s.cpu with
        a := f s.cpu.a (s.load m).1, p := t.cpu.p, pc := s.cpu.pc + BitVec.ofNat 16 m.operandBytes } ∧
      SetsNZ (f s.cpu.a (s.load m).1) s.cpu.p t.cpu.p ∧ KeepsMemory s t ∧ Takes (s.operandCycles m) s t := by
  refine ⟨_, hexec, ?_, ?_, s.readThen_keepsMemory m _, s.takes_readThen m _⟩
  · rw [s.readThen_accumulate_cpu]
    rfl
  · rw [s.readThen_accumulate_cpu]
    exact setsNZ_setNZ _ _

/-- Settles O25: the three instructions are one bus sequence and differ in the bitwise operation. -/
theorem logic : Obligations.Logic := by
  unfold Obligations.Logic
  refine ⟨by decide, by decide, by decide, fun m s i r hi => ?_⟩
  simp only [List.mem_cons, Prod.mk.injEq, List.not_mem_nil, or_false] at hi
  rcases hi with ⟨rfl, rfl⟩ | ⟨rfl, rfl⟩ | ⟨rfl, rfl⟩
  · exact exec_logic (f := (· ||| ·)) rfl
  · exact exec_logic (f := (· &&& ·)) rfl
  · exact exec_logic (f := (· ^^^ ·)) rfl

/-! ### O26: addition and subtraction (R180, R181, R186, R251) -/

/-- The sign bit of a byte. -/
theorem bitOf_seven (v : Byte) : bitOf v 7 = decide (128 ≤ v.toNat) := v.msb_eq_decide

/-- R180's V: operands of one sign and a result of the other. -/
theorem bitOf_overflow (a m r : Byte) :
    bitOf (~~~(a ^^^ m) &&& (a ^^^ r)) 7 = (bitOf a 7 == bitOf m 7 && bitOf a 7 != bitOf r 7) := by
  simp only [bitOf, BitVec.getLsbD_and, BitVec.getLsbD_not, BitVec.getLsbD_xor]
  cases a.getLsbD 7 <;> cases m.getLsbD 7 <;> cases r.getLsbD 7 <;> rfl

/-- V is set exactly when the signed sum does not fit eight bits: the sign bits and the signed values are both read off
the unsigned ones. -/
theorem bitOf_overflow_eq_signed_sum {a m r : Byte} {c : Nat} (hc : c ≤ 1)
    (hr : r.toNat = (a.toNat + m.toNat + c) % 256) :
    bitOf (~~~(a ^^^ m) &&& (a ^^^ r)) 7 = !decide (-128 ≤ a.toInt + m.toInt + c ∧ a.toInt + m.toInt + c ≤ 127) := by
  have ha := a.isLt
  have hm := m.isLt
  have hsa : a.toInt = if 2 * a.toNat < 256 then (a.toNat : Int) else a.toNat - 256 := a.toInt_eq_toNat_cond
  have hsm : m.toInt = if 2 * m.toNat < 256 then (m.toNat : Int) else m.toNat - 256 := m.toInt_eq_toNat_cond
  rw [bitOf_overflow, bitOf_seven, bitOf_seven, bitOf_seven, Bool.eq_iff_iff]
  simp only [Bool.and_eq_true, beq_iff_eq, bne_iff_ne, ne_eq, decide_eq_decide, Bool.not_eq_true',
    decide_eq_false_iff_not]
  omega

/-- A byte and a carry are the nine bits of a sum. -/
theorem nine_bit_sum {n : Nat} (hn : n < 512) : (BitVec.ofNat 8 n).toNat + 256 * (decide (0xFF < n)).toNat = n := by
  rw [BitVec.toNat_ofNat]
  by_cases h : 0xFF < n
  · simp [h]
    omega
  · simp [h]
    omega

theorem addsWithCarry_adc (a m p : Byte) : AddsWithCarry a m p (adc a m p).value (adc a m p).p := by
  have ha := a.isLt
  have hm := m.isLt
  have hc : (bitOf p flagC).toNat ≤ 1 := Bool.toNat_le _
  have hC : bitOf (adc a m p).p flagC = decide (0xFF < a.toNat + m.toNat + carryIn p) := by
    simp (disch := decide) [adc, bitOf_setNZ, bitOf_setFlag]
  have hV : bitOf (adc a m p).p flagV = bitOf (~~~(a ^^^ m) &&& (a ^^^ (adc a m p).value)) 7 := by
    simp (disch := decide) [adc, bitOf_setNZ, bitOf_setFlag]
  refine ⟨?_, ?_, bitOf_setNZ flagN (by decide) _ _, bitOf_setNZ flagZ (by decide) _ _, ?_⟩
  · rw [hC]
    exact nine_bit_sum (by unfold carryIn; omega)
  · rw [hV]
    exact bitOf_overflow_eq_signed_sum hc (BitVec.toNat_ofNat _ _)
  · exact (((FlagsKept.refl _ p).setFlag _).setFlag _).setNZ _

theorem xor_ones (m : Byte) : m ^^^ 0xFF#8 = ~~~m := BitVec.xor_allOnes

theorem toInt_complement (m : Byte) : (~~~m).toInt = -1 - m.toInt := by
  have hm := m.isLt
  rw [BitVec.toInt_eq_toNat_cond, BitVec.toInt_eq_toNat_cond, BitVec.toNat_not]
  omega

/-- Subtraction with borrow is addition of the complement (R181). -/
theorem subtractsWithBorrow_of_addsWithCarry {a m p r q : Byte} (h : AddsWithCarry a (m ^^^ 0xFF#8) p r q) :
    SubtractsWithBorrow a m p r q := by
  obtain ⟨hsum, hV, hN, hZ, hkept⟩ := h
  have hm := m.isLt
  rw [xor_ones, BitVec.toNat_not] at hsum
  rw [xor_ones, toInt_complement] at hV
  refine ⟨by omega, ?_, hN, hZ, hkept⟩
  rw [hV, show a.toInt - m.toInt - (1 - ((bitOf p flagC).toNat : Int)) =
    a.toInt + (-1 - m.toInt) + (bitOf p flagC).toNat by ring]

/-- What ADC and SBC do: `R` is the arithmetic that `op`'s result and status satisfy. -/
theorem exec_arithmetic {i : Instr} {m : ReadMode} {op : Byte → Byte → Byte → AluResult} {s : State}
    {R : Byte → Byte → Byte → Byte → Byte → Prop} (hR : ∀ a v p, R a v p (op a v p).value (op a v p).p)
    (hexec : exec i s = .next (s.readThen m (accumulate op))) :
    ∃ t, exec i s = .next t ∧
      t.cpu = { s.cpu with a := t.cpu.a, p := t.cpu.p, pc := s.cpu.pc + BitVec.ofNat 16 m.operandBytes } ∧
      R s.cpu.a (s.load m).1 s.cpu.p t.cpu.a t.cpu.p ∧ KeepsMemory s t ∧ Takes (s.operandCycles m) s t := by
  refine ⟨_, hexec, ?_, ?_, s.readThen_keepsMemory m _, s.takes_readThen m _⟩
  · rw [s.readThen_accumulate_cpu]
  · rw [s.readThen_accumulate_cpu]
    exact hR _ _ _

/-- Settles O26: SBC is ADC of the complement, and opcode 0xEB runs SBC's immediate form. -/
theorem addSubtract : Obligations.AddSubtract := by
  unfold Obligations.AddSubtract
  refine ⟨by decide, by decide, fun m s => ⟨?_, ?_, ?_⟩⟩
  · exact exec_arithmetic (op := adc) addsWithCarry_adc rfl
  · exact exec_arithmetic (op := sbc)
      (fun a v p => subtractsWithBorrow_of_addsWithCarry (addsWithCarry_adc a (v ^^^ 0xFF#8) p)) rfl
  · exact ⟨_, rfl, rfl⟩

/-! ### O27: compares and BIT (R182 to R185) -/

/-- A status computed from the operand and the registers goes to P. -/
def putStatus (f : Byte → Cpu → Byte) : Byte → Cpu → Cpu := fun v c => { c with p := f v c }

theorem State.readThen_putStatus_cpu (m : ReadMode) (f : Byte → Cpu → Byte) (s : State) :
    (s.readThen m (putStatus f)).cpu =
      { s.cpu with
        p := f (s.load m).1 (s.cpu.advance m.operandBytes), pc := s.cpu.pc + BitVec.ofNat 16 m.operandBytes } :=
  s.readThen_cpu m (putStatus f)

theorem compares_compare (r m p : Byte) : Compares r m p (compare r m p) := by
  refine ⟨?_, ?_, ?_, ?_⟩
  · simp (disch := decide) [compare, bitOf_setFlag]
  · simp (disch := decide) [compare, bitOf_setFlag]
  · simp (disch := decide) [compare, bitOf_setFlag]
  · exact (((FlagsKept.refl _ p).setFlag _).setFlag _).setFlag _

/-- What every compare does: `reg` is the register compared. -/
theorem exec_compare {i : Instr} {m : ReadMode} {reg : Cpu → Byte} {s : State}
    (hreg : reg (s.cpu.advance m.operandBytes) = reg s.cpu)
    (hexec : exec i s = .next (s.readThen m (putStatus fun v c => compare (reg c) v c.p))) :
    ∃ t, exec i s = .next t ∧
      t.cpu = { s.cpu with p := t.cpu.p, pc := s.cpu.pc + BitVec.ofNat 16 m.operandBytes } ∧
      Compares (reg s.cpu) (s.load m).1 s.cpu.p t.cpu.p ∧ KeepsMemory s t ∧ Takes (s.operandCycles m) s t := by
  refine ⟨_, hexec, ?_, ?_, s.readThen_keepsMemory m _, s.takes_readThen m _⟩
  · rw [s.readThen_putStatus_cpu]
  · rw [s.readThen_putStatus_cpu, hreg]
    exact compares_compare _ _ _

theorem bitOf_bitTest (a m p : Byte) :
    bitOf (bitTest a m p) flagZ = (a &&& m == 0#8) ∧ bitOf (bitTest a m p) flagN = bitOf m 7 ∧
      bitOf (bitTest a m p) flagV = bitOf m 6 ∧ FlagsKept [flagN, flagV, flagZ] p (bitTest a m p) := by
  refine ⟨?_, ?_, ?_, ?_⟩
  · simp (disch := decide) [bitTest, bitOf_setFlag]
  · simp (disch := decide) [bitTest, bitOf_setFlag]
  · simp (disch := decide) [bitTest, bitOf_setFlag]
  · exact (((FlagsKept.refl _ p).setFlag _).setFlag _).setFlag _

/-- BIT's read class has no immediate form. -/
theorem exec_bit (m : AddrMode) (s : State) :
    exec (.bit m) s = .next (s.readThen (.mem m) (putStatus fun v c => bitTest c.a v c.p)) := rfl

/-- Settles O27: a compare and BIT are the read class's bus sequence and a new status. -/
theorem comparesAndBitTest : Obligations.ComparesAndBitTest := by
  unfold Obligations.ComparesAndBitTest
  refine ⟨by decide, by decide, fun m s => ?_, fun m s i r hi => ?_⟩
  · have hcpu := s.readThen_putStatus_cpu (.mem m) fun v c => bitTest c.a v c.p
    obtain ⟨hZ, hN, hV, hkept⟩ := bitOf_bitTest s.cpu.a (s.loadMem m).1 s.cpu.p
    refine ⟨_, exec_bit m s, ?_, ?_, ?_, ?_, ?_, s.readThen_keepsMemory (.mem m) _, s.takes_readThen (.mem m) _⟩
    all_goals rw [hcpu]
    exacts [rfl, hZ, hN, hV, hkept]
  · simp only [List.mem_cons, Prod.mk.injEq, List.not_mem_nil, or_false] at hi
    rcases hi with ⟨rfl, rfl⟩ | ⟨rfl, rfl⟩ | ⟨rfl, rfl⟩
    · exact exec_compare (reg := (·.a)) rfl rfl
    · exact exec_compare (reg := (·.x)) rfl rfl
    · exact exec_compare (reg := (·.y)) rfl rfl

end Sys2Proof.Machine
end

section
/-! Shifts, rotates, increments and decrements (43_rmw.md R190 to R200): the read-modify-write class's bus sequence, or
the dummy read at PC, around an operation on a byte and P. -/

namespace Sys2Proof.Machine

/-! ### The four shifts and rotates on nine bits (R191 to R194) -/

/-- Or-ing a bit into a clear place adds it. -/
theorem toNat_or_bitAt {u : Byte} {k : Nat} (hk : k < 8) (hclear : bitOf u k = false) (c : Bool) :
    (u ||| bitAt c k).toNat = u.toNat + 2 ^ k * c.toNat := by
  cases c with
  | false => exact congrArg BitVec.toNat BitVec.or_zero
  | true =>
    have hdisjoint : u &&& BitVec.twoPow 8 k = 0#8 := by
      rw [BitVec.and_twoPow]
      exact if_neg (Bool.eq_false_iff.1 hclear)
    calc (u ||| bitAt true k).toNat = (u ||| BitVec.twoPow 8 k).toNat := rfl
      _ = (u + BitVec.twoPow 8 k).toNat := by rw [BitVec.add_eq_or_of_and_eq_zero _ _ hdisjoint]
      _ = u.toNat + 2 ^ k * true.toNat := by
        rw [BitVec.toNat_add_of_and_eq_zero hdisjoint, BitVec.toNat_twoPow_of_lt hk, Bool.toNat_true, Nat.mul_one]

theorem bitOf_zero (v : Byte) : bitOf v 0 = decide (v.toNat % 2 = 1) := Nat.testBit_zero _

/-- A left shift leaves bit 0 clear. -/
theorem shiftLeft_one_or_bitAt (v : Byte) (c : Bool) :
    (v <<< 1) ||| bitAt c 0 = BitVec.ofNat 8 (2 * v.toNat + c.toNat) := by
  apply BitVec.eq_of_toNat_eq
  have hc := Bool.toNat_le c
  rw [toNat_or_bitAt (by decide) (by simp [bitOf]), BitVec.toNat_shiftLeft, Nat.shiftLeft_eq, BitVec.toNat_ofNat]
  omega

/-- A right shift leaves bit 7 clear. -/
theorem ushiftRight_one_or_bitAt (v : Byte) (c : Bool) :
    (v >>> 1) ||| bitAt c 7 = BitVec.ofNat 8 (v.toNat / 2 + 128 * c.toNat) := by
  apply BitVec.eq_of_toNat_eq
  have hv := v.isLt
  have hc := Bool.toNat_le c
  rw [toNat_or_bitAt (by decide) (by simp [bitOf]), BitVec.toNat_ushiftRight, Nat.shiftRight_eq_div_pow,
    BitVec.toNat_ofNat]
  omega

theorem shiftLeft_one_eq (v : Byte) : v <<< 1 = BitVec.ofNat 8 (2 * v.toNat) :=
  BitVec.or_zero.symm.trans (shiftLeft_one_or_bitAt v false)

theorem ushiftRight_one_eq (v : Byte) : v >>> 1 = BitVec.ofNat 8 (v.toNat / 2) :=
  BitVec.or_zero.symm.trans (ushiftRight_one_or_bitAt v false)

/-- The result of a shift or rotate and the status after it: C from the carry out, then N and Z from the byte. -/
def ShiftSpec.result (r : ShiftSpec) (p : Byte) : AluResult := resultNZ r.value (setFlag flagC r.carry p)

theorem asl_eq (v p : Byte) : asl v p = (aslSpec v).result p := by
  rw [asl, shiftLeft_one_eq, bitOf_seven]
  rfl

theorem lsr_eq (v p : Byte) : lsr v p = (lsrSpec v).result p := by
  rw [lsr, ushiftRight_one_eq, bitOf_zero]
  rfl

theorem rol_eq (v p : Byte) : rol v p = (rolSpec v (bitOf p flagC)).result p := by
  rw [rol, shiftLeft_one_or_bitAt, bitOf_seven]
  rfl

theorem ror_eq (v p : Byte) : ror v p = (rorSpec v (bitOf p flagC)).result p := by
  rw [ror, ushiftRight_one_or_bitAt, bitOf_zero v]
  rfl

theorem ShiftSpec.setsNZC_result (r : ShiftSpec) (p : Byte) : SetsNZC r.value r.carry p (r.result p).p := by
  refine ⟨bitOf_setNZ flagN (by decide) _ _, bitOf_setNZ flagZ (by decide) _ _, ?_, ?_⟩
  · exact (bitOf_setNZ flagC (by decide) _ _).trans (bitOf_setFlag flagC flagC (by decide) (by decide) _ _)
  · exact ((FlagsKept.refl _ p).setFlag _).setNZ _

/-- The four shift instructions in form `m`, each with its byte and carry out for the byte `v` and the carry in `c`. -/
def shiftForms (m : RmwMode) (v : Byte) (c : Bool) : List (Instr × ShiftSpec) :=
  [(.asl m, aslSpec v), (.lsr m, lsrSpec v), (.rol m, rolSpec v c), (.ror m, rorSpec v c)]

/-- Each is the sequence of its form around an operation whose result on `v` is the listed one. -/
theorem exec_shiftForm {m : RmwMode} {v : Byte} {s : State} {i : Instr} {r : ShiftSpec}
    (hi : (i, r) ∈ shiftForms m v (bitOf s.cpu.p flagC)) :
    ∃ f, exec i s = .next (s.shift m f) ∧ f v s.cpu.p = r.result s.cpu.p := by
  simp only [shiftForms, List.mem_cons, Prod.mk.injEq, List.not_mem_nil, or_false] at hi
  rcases hi with ⟨rfl, rfl⟩ | ⟨rfl, rfl⟩ | ⟨rfl, rfl⟩ | ⟨rfl, rfl⟩
  · exact ⟨asl, rfl, asl_eq v _⟩
  · exact ⟨lsr, rfl, lsr_eq v _⟩
  · exact ⟨rol, rfl, rol_eq v _⟩
  · exact ⟨ror, rfl, ror_eq v _⟩

/-! ### O28: the accumulator forms -/

theorem State.modifyA_eq (f : Byte → Byte → AluResult) (s : State) :
    s.modifyA f =
      s.dummyFetchThen { s.cpu with a := (f s.cpu.a s.cpu.p).value, p := (f s.cpu.a s.cpu.p).p } := rfl

/-- Settles O28: a shift on A is one dummy read and one change of A and P. -/
theorem accumulatorShifts : Obligations.AccumulatorShifts := by
  unfold Obligations.AccumulatorShifts
  refine ⟨by decide, fun s i r hi => ?_⟩
  obtain ⟨f, hexec, hf⟩ := exec_shiftForm (m := .accumulator) hi
  rw [State.shift, s.modifyA_eq, hf] at hexec
  exact ⟨_, hexec, rfl, r.setsNZC_result _, s.dummyFetchThen_keepsMemory _, s.takes_dummyFetchThen _⟩

/-! ### The byte a read-modify-write instruction stores (R190) -/

theorem State.beginModify_memoryOk (m : AddrMode) {s : State} (hs : s.MemoryOk) : (s.beginModify m).state.MemoryOk :=
  ((Runs.refl s).beginModify m).keeps (fun _ _ => Act.keeps_memoryOk) hs

/-- The second write leaves the operation's byte. -/
theorem State.modify_byteAt_self (m : AddrMode) (op : RmwOp) {s : State} (hs : s.MemoryOk)
    (hea : (s.effectiveAddr m).1 ≠ 0x4014#16) {l : Location}
    (hl : (s.beginModify m).state.WritesTo (s.effectiveAddr m).1 l) :
    (s.modify m op).byteAt l = l.kept (op (s.beginModify m).value (s.cpu.advance m.operandBytes)).1 := by
  rw [← (s.beginModify_frame m).1]
  exact State.write_byteAt_self hea _ (s.beginModify_memoryOk m hs) hl

/-- What a shift, INC or DEC on memory does: `q` is the operation's result on the old byte. -/
theorem exec_modify_rmwOf {i : Instr} {m : AddrMode} {f : Byte → Byte → AluResult} {q : AluResult} {s : State}
    (hexec : exec i s = .next (s.modify m (rmwOf f))) (hf : f (s.beginModify m).value s.cpu.p = q) :
    ∃ t, exec i s = .next t ∧ t.cpu.a = s.cpu.a ∧ t.cpu.p = q.p ∧
      (s.MemoryOk → (s.effectiveAddr m).1 ≠ 0x4014#16 →
        ∀ l, (s.beginModify m).state.WritesTo (s.effectiveAddr m).1 l → t.byteAt l = l.kept q.value) := by
  have hcpu := s.modify_cpu m (rmwOf f)
  subst hf
  refine ⟨_, hexec, ?_, ?_, fun hs hea l => State.modify_byteAt_self m (rmwOf f) hs hea⟩
  · rw [hcpu]
    rfl
  · rw [hcpu]
    rfl

/-! ### O30: shifts on memory -/

/-- Settles O30: the memory forms are the class's sequence around the operations of the accumulator forms. -/
theorem memoryShifts : Obligations.MemoryShifts := by
  unfold Obligations.MemoryShifts
  refine ⟨by decide, by decide, ?_⟩
  intro m s i r ea v w hi
  obtain ⟨f, hexec, hf⟩ := exec_shiftForm (m := .mem m) hi
  obtain ⟨t, hnext, hA, hP, hstored⟩ := exec_modify_rmwOf hexec hf
  refine ⟨t, hnext, hA, ?_, hstored⟩
  rw [hP]
  exact r.setsNZC_result _

/-! ### O31: INC and DEC (R195, R196) -/

/-- INC and DEC, each with the byte it stores for the old byte `v`. -/
theorem exec_incDec {m : AddrMode} {v : Byte} {s : State} {i : Instr} {r : Byte}
    (hi : (i, r) ∈ [(Instr.inc m, v + 1#8), (.dec m, v - 1#8)]) :
    ∃ f, exec i s = .next (s.modify m (rmwOf f)) ∧ f v s.cpu.p = resultNZ r s.cpu.p := by
  simp only [List.mem_cons, Prod.mk.injEq, List.not_mem_nil, or_false] at hi
  rcases hi with ⟨rfl, rfl⟩ | ⟨rfl, rfl⟩
  · exact ⟨inc, rfl, rfl⟩
  · exact ⟨dec, rfl, rfl⟩

/-- Settles O31: the class's sequence, with N and Z as the only flags of the operation. -/
theorem incrementDecrementMemory : Obligations.IncrementDecrementMemory := by
  unfold Obligations.IncrementDecrementMemory
  refine ⟨by decide, ?_⟩
  intro m s i r ea v w hi
  obtain ⟨f, hexec, hf⟩ := exec_incDec hi
  obtain ⟨t, hnext, hA, hP, hstored⟩ := exec_modify_rmwOf hexec hf
  refine ⟨t, hnext, hA, ?_, hstored⟩
  rw [hP]
  exact setsNZ_setNZ r _

/-! ### O32: the register increments and decrements (R197 to R200) -/

/-- The four instructions, each with X and Y after it and the byte that sets N and Z. -/
theorem exec_incDecRegister {s : State} {i : Instr} {x y r : Byte}
    (hi : (i, x, y, r) ∈ [(Instr.inx, s.cpu.x + 1#8, s.cpu.y, s.cpu.x + 1#8),
      (.iny, s.cpu.x, s.cpu.y + 1#8, s.cpu.y + 1#8), (.dex, s.cpu.x - 1#8, s.cpu.y, s.cpu.x - 1#8),
      (.dey, s.cpu.x, s.cpu.y - 1#8, s.cpu.y - 1#8)]) :
    exec i s = .next (s.dummyFetchThen { s.cpu with x := x, y := y, p := setNZ r s.cpu.p }) := by
  simp only [List.mem_cons, Prod.mk.injEq, List.not_mem_nil, or_false] at hi
  rcases hi with ⟨rfl, rfl, rfl, rfl⟩ | ⟨rfl, rfl, rfl, rfl⟩ | ⟨rfl, rfl, rfl, rfl⟩ | ⟨rfl, rfl, rfl, rfl⟩ <;> rfl

/-- Settles O32: each is one dummy read and one change of the registers. -/
theorem incrementDecrementRegister : Obligations.IncrementDecrementRegister := by
  unfold Obligations.IncrementDecrementRegister
  refine ⟨by decide, fun s i x y r hi => ?_⟩
  exact ⟨_, exec_incDecRegister hi, rfl, setsNZ_setNZ r _, s.dummyFetchThen_keepsMemory _, s.takes_dummyFetchThen _⟩

end Sys2Proof.Machine
end

section
/-! The stack as a whole (41_transfer_stack.md R160): what pushes leave in page 1, what pulls find there, and the entry
of a handler, which NMI, IRQ and BRK share (44_control_flow.md R211, 60_exceptions.md R498). -/

namespace Sys2Proof.Machine

/-! ### Frames that follow one another -/

theorem KeepsMemory.of_mem {s t : State} (hmem : t.mem = s.mem) (hcart : t.cart = s.cart)
    (hparams : t.params = s.params) : KeepsMemory s t :=
  ⟨fun l => congrArg (Memories.byteAt · l) hmem, hcart, hparams⟩

theorem KeepsMemory.trans {a b c : State} (h : KeepsMemory a b) (h' : KeepsMemory b c) : KeepsMemory a c := by
  obtain ⟨hbytes, hcart, hparams⟩ := h
  obtain ⟨hbytes', hcart', hparams'⟩ := h'
  exact ⟨fun l => (hbytes' l).trans (hbytes l), hcart'.trans hcart, hparams'.trans hparams⟩

theorem KeepsMemory.stackByte {s t : State} (h : KeepsMemory s t) (sp : Byte) : t.stackByte sp = s.stackByte sp := h.1 _

theorem KeepsAllButStack.then_keepsMemory {sps : List Byte} {a b c : State} (h : KeepsAllButStack sps a b)
    (h' : KeepsMemory b c) : KeepsAllButStack sps a c := by
  obtain ⟨hbytes, hcart, hparams⟩ := h
  obtain ⟨hbytes', hcart', hparams'⟩ := h'
  exact ⟨fun l hl => (hbytes' l).trans (hbytes l hl), hcart'.trans hcart, hparams'.trans hparams⟩

theorem KeepsMemory.then_keepsAllButStack {sps : List Byte} {a b c : State} (h : KeepsMemory a b)
    (h' : KeepsAllButStack sps b c) : KeepsAllButStack sps a c := by
  obtain ⟨hbytes, hcart, hparams⟩ := h
  obtain ⟨hbytes', hcart', hparams'⟩ := h'
  exact ⟨fun l hl => (hbytes' l hl).trans (hbytes l), hcart'.trans hcart, hparams'.trans hparams⟩

theorem KeepsAllButStack.trans {xs ys : List Byte} {a b c : State} (h : KeepsAllButStack xs a b)
    (h' : KeepsAllButStack ys b c) : KeepsAllButStack (xs ++ ys) a c := by
  obtain ⟨hbytes, hcart, hparams⟩ := h
  obtain ⟨hbytes', hcart', hparams'⟩ := h'
  refine ⟨fun l hl => ?_, hcart'.trans hcart, hparams'.trans hparams⟩
  exact (hbytes' l fun sp hsp => hl sp (List.mem_append_right xs hsp)).trans
    (hbytes l fun sp hsp => hl sp (List.mem_append_left ys hsp))

/-- A stack byte that is not listed is kept. -/
theorem KeepsAllButStack.stackByte {sps : List Byte} {s t : State} (h : KeepsAllButStack sps s t) {sp : Byte}
    (hsp : sp ∉ sps) : t.stackByte sp = s.stackByte sp := by
  refine h.1 _ fun sp' hmem heq => hsp ?_
  have hindex : 0x100 + sp.toNat = 0x100 + sp'.toNat := congrArg Location.index heq
  rwa [BitVec.eq_of_toNat_eq (Nat.add_left_cancel hindex)]

/-! ### What fetches, pulls and register updates leave -/

theorem State.fetch_keepsMemory (s : State) : KeepsMemory s s.fetch.2 := .of_mem rfl rfl rfl

theorem State.fetchWord_keepsMemory (s : State) : KeepsMemory s s.fetchWord.2 := .of_mem rfl rfl rfl

theorem State.setPc_keepsMemory (w : Word) (s : State) : KeepsMemory s (s.setPc w) := .of_mem rfl rfl rfl

theorem takes_setPc (w : Word) (s : State) : TakesIdle 0 s (s.setPc w) := fun hidle => ⟨rfl, hidle⟩

theorem takes_setP (p : Byte) (s : State) : TakesIdle 0 s (s.setP p) := fun hidle => ⟨rfl, hidle⟩

@[simp] theorem State.setPc_peek (w : Word) (s : State) (a : Word) : (s.setPc w).peek a = s.peek a := rfl

@[simp] theorem State.setP_stackByte (p : Byte) (s : State) (sp : Byte) :
    (s.setP p).stackByte sp = s.stackByte sp := rfl

@[simp] theorem State.dummyFetch_stackByte (s : State) (sp : Byte) : s.dummyFetch.stackByte sp = s.stackByte sp := rfl

@[simp] theorem State.stackStep_stackByte (s : State) (sp : Byte) : s.stackStep.stackByte sp = s.stackByte sp := rfl

@[simp] theorem State.readStackStep_stackByte (s : State) (sp : Byte) :
    s.readStackStep.2.stackByte sp = s.stackByte sp := rfl

/-- A pulled byte that is not the last is page 1's byte at S, like the last. -/
theorem State.readStackStep_value (s : State) : s.readStackStep.1 = s.stackByte s.cpu.s := s.readStack_value

/-! ### Pushing PC -/

theorem State.push_wf (v : Byte) {s : State} (hs : s.mem.wf = true) : (s.push v).mem.wf = true :=
  s.write_wf _ v hs

@[simp] theorem State.pushPc_cpu (s : State) : s.pushPc.cpu = { s.cpu with s := s.cpu.s - 2#8 } := by
  have hs : s.cpu.s - 1#8 - 1#8 = s.cpu.s - 2#8 := by bv_omega
  simp [State.pushPc, hs]

theorem State.pushPc_wf {s : State} (hs : s.mem.wf = true) : s.pushPc.mem.wf = true :=
  State.push_wf _ (State.push_wf _ hs)

theorem State.pushPc_keepsAllButStack (s : State) : KeepsAllButStack [s.cpu.s, s.cpu.s - 1#8] s s.pushPc := by
  have hlow := (s.push (hi s.cpu.pc)).push_keepsAllButStack (lo s.cpu.pc)
  rw [State.push_cpu] at hlow
  exact (s.push_keepsAllButStack _).trans hlow

/-- The high byte of PC is at S, the low byte below it. -/
theorem State.pushPc_stackByte {s : State} (hs : s.mem.wf = true) :
    s.pushPc.stackByte s.cpu.s = hi s.cpu.pc ∧ s.pushPc.stackByte (s.cpu.s - 1#8) = lo s.cpu.pc := by
  have hlow := (s.push (hi s.cpu.pc)).push_keepsAllButStack (lo s.cpu.pc)
  have hself := State.push_stackByte_self (lo s.cpu.pc) (State.push_wf (hi s.cpu.pc) hs)
  rw [State.push_cpu] at hlow hself
  have hother : s.cpu.s ∉ [s.cpu.s - 1#8] := by
    rw [List.mem_singleton]
    bv_omega
  exact ⟨(hlow.stackByte hother).trans (State.push_stackByte_self _ hs), hself⟩

/-! ### What a push leaves of the cartridge -/

/-- `Peek` shows the same byte in `t` as in `s` at every address from 0x6000 on. -/
def State.SameCartPeek (s t : State) : Prop := ∀ a : Word, 0x6000 ≤ a.toNat → t.peek a = s.peek a

theorem State.SamePeek.cart {s t : State} (h : s.SamePeek t) : s.SameCartPeek t := fun a ha => h a (.inr ha)

theorem State.SameCartPeek.trans {s t u : State} (h : s.SameCartPeek t) (h' : t.SameCartPeek u) : s.SameCartPeek u :=
  fun a ha => (h' a ha).trans (h a ha)

theorem State.SameCartPeek.peekWord {s t : State} (h : s.SameCartPeek t) {low high : Word} (hlow : 0x6000 ≤ low.toNat)
    (hhigh : 0x6000 ≤ high.toNat) : t.peekWord low high = s.peekWord low high :=
  congrArg₂ cat (h high hhigh) (h low hlow)

/-- The cartridge shows the CPU its ROM, its RAM and its registers, and none of the internal RAM. -/
theorem State.sameCartPeek_of_sameMap {s t : State} (hcart : t.cart = s.cart) (hprg : t.mem.prgRam = s.mem.prgRam)
    (hex : t.mem.exRam = s.mem.exRam) (hmap : s.dev.mapper.SameMap t.dev.mapper) : s.SameCartPeek t := by
  intro a ha
  have henv : t.dev.mapper.cpuPeek t.env a = t.dev.mapper.cpuPeek s.env a := by
    simp only [Mapper.cpuPeek, State.env, hcart, hprg, hex]
  unfold State.peek
  rw [busTarget_from_4020 (by omega)]
  exact henv.trans (hmap.cpuPeek s.env (by omega))

/-- A write cycle to RAM is a tick as far as the devices go, but for the data latch. -/
theorem State.write_dev_ram {a : Word} {i : Nat} (h : busTarget a = .ram i) (v : Byte) (s : State) :
    (s.write a v).dev = { s.tick.dev with dataLatch := v } := by
  have ha : a ≠ 0x4014#16 := by
    rintro rfl
    exact BusTarget.noConfusion (h : BusTarget.io 0x14 = .ram i)
  have hdev : busWriteDevices s.tick.env a v s.tick.dev = s.tick.dev := by
    unfold busWriteDevices
    rw [h]
  unfold State.write State.busWrite
  rw [if_neg ha]
  exact congrArg (fun d : Devices => { d with dataLatch := v }) hdev

theorem State.push_sameCartPeek (v : Byte) (s : State) : s.SameCartPeek (s.push v) := by
  have hmem := s.push_mem v
  refine State.sameCartPeek_of_sameMap (s.push_cart v) (by rw [hmem]) (by rw [hmem]) ?_
  have hdev : (s.push v).dev = { s.tick.dev with dataLatch := v } :=
    State.write_dev_ram (busTarget_stackAddr s.cpu.s) v s
  rw [hdev]
  exact (quiet_tick (.refl s.dev) s.env).1

/-! ### The entry of a handler -/

/-- C3 to C5 of an entry: PC and the status are pushed. -/
def State.pushEntry (k : Interrupt) (s : State) : State := s.pushPc.push (k.pushedStatus s.cpu.p)

/-- The address of the vector an entry goes through: an NMI's own, and anyone's when the NMI request is up after C5. -/
def State.entryVector (k : Interrupt) (s : State) : Word :=
  if k = .nmi ∨ (s.pushEntry k).dev.nmiRequest = true then nmiVector else irqVector

theorem State.pushEntry_cpu (k : Interrupt) (s : State) : (s.pushEntry k).cpu = { s.cpu with s := s.cpu.s - 3#8 } := by
  have hs : s.cpu.s - 2#8 - 1#8 = s.cpu.s - 3#8 := by bv_omega
  simp [State.pushEntry, hs]

theorem State.pushEntry_keepsAllButStack (k : Interrupt) (s : State) :
    KeepsAllButStack [s.cpu.s, s.cpu.s - 1#8, s.cpu.s - 2#8] s (s.pushEntry k) := by
  have hstatus := s.pushPc.push_keepsAllButStack (k.pushedStatus s.cpu.p)
  rw [State.pushPc_cpu] at hstatus
  exact s.pushPc_keepsAllButStack.trans hstatus

theorem State.pushEntry_stackByte (k : Interrupt) {s : State} (hs : s.mem.wf = true) :
    (s.pushEntry k).stackByte s.cpu.s = hi s.cpu.pc ∧ (s.pushEntry k).stackByte (s.cpu.s - 1#8) = lo s.cpu.pc ∧
      (s.pushEntry k).stackByte (s.cpu.s - 2#8) = k.pushedStatus s.cpu.p := by
  have hkeeps := s.pushPc.push_keepsAllButStack (k.pushedStatus s.cpu.p)
  have hself := State.push_stackByte_self (k.pushedStatus s.cpu.p) (State.pushPc_wf hs)
  rw [State.pushPc_cpu] at hkeeps hself
  obtain ⟨hhigh, hlow⟩ := State.pushPc_stackByte hs
  refine ⟨(hkeeps.stackByte ?_).trans hhigh, (hkeeps.stackByte ?_).trans hlow, hself⟩
  all_goals
    rw [List.mem_singleton]
    bv_omega

theorem State.pushEntry_sameCartPeek (k : Interrupt) (s : State) : s.SameCartPeek (s.pushEntry k) :=
  ((s.push_sameCartPeek _).trans (State.push_sameCartPeek _ _)).trans (State.push_sameCartPeek _ _)

theorem takes_pushEntry (k : Interrupt) (s : State) : TakesIdle 3 s (s.pushEntry k) :=
  (takes_pushPc s).trans (takes_push _ _)

/-- The NMI request at `b`. -/
def State.setNmiRequest (b : Bool) (s : State) : State := { s with dev := { s.dev with nmiRequest := b } }

theorem State.setNmiRequest_self (s : State) : s.setNmiRequest s.dev.nmiRequest = s := rfl

@[simp] theorem State.setNmiRequest_cpu (b : Bool) (s : State) : (s.setNmiRequest b).cpu = s.cpu := rfl

@[simp] theorem State.setNmiRequest_mem (b : Bool) (s : State) : (s.setNmiRequest b).mem = s.mem := rfl

theorem State.setNmiRequest_keepsMemory (b : Bool) (s : State) : KeepsMemory s (s.setNmiRequest b) :=
  .of_mem rfl rfl rfl

theorem State.setNmiRequest_sameCartPeek (b : Bool) (s : State) : s.SameCartPeek (s.setNmiRequest b) :=
  State.sameCartPeek_of_sameMap rfl rfl rfl fun _ _ _ => rfl

theorem takes_setNmiRequest (b : Bool) (s : State) : TakesIdle 0 s (s.setNmiRequest b) := fun hidle => ⟨rfl, hidle⟩

/-- The choice of the vector changes the NMI request at most. -/
theorem State.chooseVector_eq (k : Interrupt) (s : State) :
    ∃ b, s.chooseVector k =
      (if k = .nmi ∨ s.dev.nmiRequest = true then nmiVector else irqVector, s.setNmiRequest b) := by
  cases k with
  | nmi => exact ⟨s.dev.nmiRequest, rfl⟩
  | irq | brk =>
    unfold State.chooseVector
    dsimp only
    split
    case isTrue hreq => exact ⟨false, by rw [if_pos (.inr hreq)]; rfl⟩
    case isFalse hreq => exact ⟨s.dev.nmiRequest, by rw [if_neg (by simp [hreq]), s.setNmiRequest_self]⟩

/-- The NMI vector is a word of the cartridge. -/
theorem State.loadVector_nmi_pc (s : State) : (s.loadVector nmiVector).cpu.pc = s.peekWord 0xFFFA#16 0xFFFB#16 :=
  congrArg₂ cat (((State.SamePeek.refl s).read 0xFFFA#16).read_value (a := 0xFFFB#16) (.inr (by decide)))
    (s.read_value_stable (a := 0xFFFA#16) (.inr (by decide)))

/-- So is the vector of IRQ and BRK. -/
theorem State.loadVector_irq_pc (s : State) : (s.loadVector irqVector).cpu.pc = s.peekWord 0xFFFE#16 0xFFFF#16 :=
  congrArg₂ cat (((State.SamePeek.refl s).read 0xFFFE#16).read_value (a := 0xFFFF#16) (.inr (by decide)))
    (s.read_value_stable (a := 0xFFFE#16) (.inr (by decide)))

theorem State.maskIrq_sameCartPeek (s : State) : s.SameCartPeek s.maskIrq := fun _ _ => rfl

theorem State.loadVector_maskIrq_keepsMemory (vec : Word) (s : State) : KeepsMemory s (s.maskIrq.loadVector vec) :=
  .of_mem rfl rfl rfl

/-- An entry is three pushes, then I is set and PC comes from the vector; the NMI request may be lost on the way. -/
theorem State.enterHandler_eq (k : Interrupt) (s : State) :
    ∃ b, s.enterHandler k = ((s.pushEntry k).setNmiRequest b).maskIrq.loadVector (s.entryVector k) := by
  obtain ⟨b, hchoose⟩ := (s.pushEntry k).chooseVector_eq k
  refine ⟨b, ?_⟩
  change ((s.pushEntry k).chooseVector k).2.maskIrq.loadVector ((s.pushEntry k).chooseVector k).1 = _
  rw [hchoose]
  rfl

theorem State.enterHandler_mem (k : Interrupt) (s : State) : (s.enterHandler k).mem = (s.pushEntry k).mem := by
  obtain ⟨b, heq⟩ := s.enterHandler_eq k
  rw [heq, State.loadVector_mem, State.maskIrq_mem, State.setNmiRequest_mem]

theorem State.enterHandler_cpu (k : Interrupt) (s : State) :
    (s.enterHandler k).cpu =
      { s.cpu with s := s.cpu.s - 3#8, p := s.cpu.p ||| 0x04#8, pc := (s.enterHandler k).cpu.pc } := by
  obtain ⟨b, heq⟩ := s.enterHandler_eq k
  rw [heq, State.loadVector_cpu, State.maskIrq_cpu, State.setNmiRequest_cpu, State.pushEntry_cpu]
  rfl

theorem State.enterHandler_keepsAllButStack (k : Interrupt) (s : State) :
    KeepsAllButStack [s.cpu.s, s.cpu.s - 1#8, s.cpu.s - 2#8] s (s.enterHandler k) := by
  obtain ⟨b, heq⟩ := s.enterHandler_eq k
  have hchosen := (s.pushEntry_keepsAllButStack k).then_keepsMemory (State.setNmiRequest_keepsMemory b _)
  rw [heq]
  exact hchosen.then_keepsMemory (State.loadVector_maskIrq_keepsMemory _ _)

theorem State.enterHandler_stackByte (k : Interrupt) {s : State} (hs : s.mem.wf = true) :
    (s.enterHandler k).stackByte s.cpu.s = hi s.cpu.pc ∧
      (s.enterHandler k).stackByte (s.cpu.s - 1#8) = lo s.cpu.pc ∧
      (s.enterHandler k).stackByte (s.cpu.s - 2#8) = k.pushedStatus s.cpu.p := by
  have hpushed := State.pushEntry_stackByte k hs
  unfold State.stackByte State.ramByte State.byteAt at hpushed ⊢
  rwa [s.enterHandler_mem k]

theorem State.enterHandler_pc (k : Interrupt) (s : State) :
    (s.enterHandler k).cpu.pc =
      if k = .nmi ∨ (s.pushEntry k).dev.nmiRequest = true then s.peekWord 0xFFFA#16 0xFFFB#16
      else s.peekWord 0xFFFE#16 0xFFFF#16 := by
  obtain ⟨b, heq⟩ := s.enterHandler_eq k
  have hsame := ((s.pushEntry_sameCartPeek k).trans (State.setNmiRequest_sameCartPeek b _)).trans
    (State.maskIrq_sameCartPeek _)
  rw [heq, State.entryVector]
  split
  · exact (State.loadVector_nmi_pc _).trans (hsame.peekWord (by decide) (by decide))
  · exact (State.loadVector_irq_pc _).trans (hsame.peekWord (by decide) (by decide))

theorem takes_enterHandler (k : Interrupt) (s : State) : TakesIdle 5 s (s.enterHandler k) := by
  obtain ⟨b, heq⟩ := s.enterHandler_eq k
  have hchosen := (takes_pushEntry k s).trans (takes_setNmiRequest b (s.pushEntry k))
  rw [heq]
  exact (hchosen.of_dev (c := ((s.pushEntry k).setNmiRequest b).maskIrq) rfl).trans (takes_loadVector _ _)

end Sys2Proof.Machine
end

section
/-! Jumps, subroutines, RTI, BRK and the branches (44_control_flow.md R206 to R222): each is a run of the reads, pushes
and pulls whose laws stand above. -/

namespace Sys2Proof.Machine

/-! ### O35: jumps (R206, R207) -/

/-- The two reads of a pointer and the jump: the second byte comes from the pointer's own page. -/
def State.jumpThrough (p : Word) (s : State) : State :=
  let l := s.read p
  let h := l.2.read (cat (hi p) (lo p + 1#8))
  h.2.setPc (cat h.1 l.1)

theorem State.jumpThrough_cpu (p : Word) (s : State) :
    (s.jumpThrough p).cpu = { s.cpu with pc := (s.jumpThrough p).cpu.pc } := rfl

theorem State.jumpThrough_keepsMemory (p : Word) (s : State) : KeepsMemory s (s.jumpThrough p) :=
  ((s.read_keepsMemory p).trans (State.read_keepsMemory _ _)).trans (State.setPc_keepsMemory _ _)

theorem takes_jumpThrough (p : Word) (s : State) : TakesIdle 2 s (s.jumpThrough p) :=
  ((takes_read p s).trans (takes_read _ (s.read p).2)).trans (takes_setPc _ _)

theorem State.SamePeek.jumpThrough_pc {s t : State} (h : s.SamePeek t) {p : Word} (hlow : Stable p)
    (hhigh : Stable (cat (hi p) (lo p + 1#8))) :
    (t.jumpThrough p).cpu.pc = s.peekWord p (cat (hi p) (lo p + 1#8)) :=
  congrArg₂ cat ((h.read _).read_value hhigh) (h.read_value hlow)

theorem exec_jmp_absolute (s : State) : exec (.jmp .absolute) s = .next (s.fetchWord.2.setPc s.fetchWord.1) := rfl

theorem exec_jmp_indirect (s : State) :
    exec (.jmp .indirect) s = .next (s.fetchWord.2.jumpThrough s.fetchWord.1) := rfl

/-- Settles O35: a jump is two fetches, and through a pointer two more reads, which see what `Peek` shows. -/
theorem jumps : Obligations.Jumps := by
  unfold Obligations.Jumps
  refine ⟨by decide, fun s => ⟨?_, ?_⟩⟩
  · exact ⟨_, exec_jmp_absolute s, rfl, s.fetchWord_keepsMemory.trans (State.setPc_keepsMemory _ _),
      ((takes_fetchWord s).trans (takes_setPc _ _)).takes⟩
  · refine ⟨_, exec_jmp_indirect s, State.jumpThrough_cpu _ _, ?_, ?_, ?_⟩
    · exact s.fetchWord_keepsMemory.trans (State.jumpThrough_keepsMemory _ _)
    · exact ((takes_fetchWord s).trans (takes_jumpThrough _ _)).takes
    · exact (State.SamePeek.refl s).fetchWord.jumpThrough_pc

/-! ### O36: subroutines (R208, R209) -/

/-- JSR up to its last read: the low operand byte, a dummy read of the stack, the return address pushed. -/
def State.beginCall (s : State) : State := (s.fetch.2.dummyRead (stackAddr s.cpu.s)).pushPc

/-- JSR's last read gives the high operand byte. -/
def State.endCall (s : State) : State :=
  let h := s.beginCall.read s.beginCall.cpu.pc
  h.2.setPc (cat h.1 s.fetch.1)

theorem exec_jsr (s : State) : exec .jsr s = .next s.endCall := rfl

theorem State.beginCall_cpu (s : State) :
    s.beginCall.cpu = { s.cpu with s := s.cpu.s - 2#8, pc := s.cpu.pc + 1#16 } := State.pushPc_cpu _

theorem State.beginCall_keepsAllButStack (s : State) :
    KeepsAllButStack [s.cpu.s, s.cpu.s - 1#8] s s.beginCall := by
  have hbefore : KeepsMemory s (s.fetch.2.dummyRead (stackAddr s.cpu.s)) :=
    s.fetch_keepsMemory.trans (State.read_keepsMemory _ _)
  have hpush := (s.fetch.2.dummyRead (stackAddr s.cpu.s)).pushPc_keepsAllButStack
  rw [State.dummyRead_cpu, State.fetch_cpu] at hpush
  exact hbefore.then_keepsAllButStack hpush

theorem State.endCall_cpu (s : State) :
    s.endCall.cpu = { s.cpu with s := s.cpu.s - 2#8, pc := s.endCall.cpu.pc } := by
  simp only [State.endCall, State.setPc_cpu, State.read_cpu, s.beginCall_cpu]

/-- The high operand byte is read after the pushes, which may have changed it. -/
theorem State.endCall_pc (s : State) (hpc : Stable s.cpu.pc) (hnext : Stable (s.cpu.pc + 1#16)) :
    s.endCall.cpu.pc = cat (s.endCall.peek (s.cpu.pc + 1#16)) (s.peek s.cpu.pc) := by
  have hread : s.beginCall.cpu.pc = s.cpu.pc + 1#16 := congrArg Cpu.pc s.beginCall_cpu
  rw [← hread] at hnext ⊢
  have hkept : s.endCall.peek s.beginCall.cpu.pc = s.beginCall.peek s.beginCall.cpu.pc :=
    (State.setPc_peek _ _ _).trans (s.beginCall.read_peek_stable _ hnext)
  rw [hkept, ← s.beginCall.read_value_stable hnext, ← s.fetch_value_stable hpc]
  rfl

theorem State.endCall_keepsMemory (s : State) : KeepsMemory s.beginCall s.endCall :=
  (s.beginCall.read_keepsMemory _).trans (State.setPc_keepsMemory _ _)

theorem State.endCall_stackByte {s : State} (hs : s.MemoryOk) :
    s.endCall.stackByte s.cpu.s = hi (s.cpu.pc + 1#16) ∧
      s.endCall.stackByte (s.cpu.s - 1#8) = lo (s.cpu.pc + 1#16) := by
  have hbytes := State.pushPc_stackByte (s := s.fetch.2.dummyRead (stackAddr s.cpu.s)) hs.1
  rw [State.dummyRead_cpu, State.fetch_cpu] at hbytes
  rwa [s.endCall_keepsMemory.stackByte, s.endCall_keepsMemory.stackByte]

theorem takes_beginCall (s : State) : TakesIdle 4 s s.beginCall :=
  ((takes_fetch s).trans (takes_dummyRead _ _)).trans (takes_pushPc _)

theorem takes_endCall (s : State) : TakesIdle 5 s s.endCall :=
  ((takes_beginCall s).trans (takes_read _ _)).trans (takes_setPc _ _)

/-- RTS up to its dummy read: the word above S is pulled to PC. -/
def State.pullPc (s : State) : State :=
  let l := s.dummyFetch.stackStep.readStackStep
  let h := l.2.readStack
  h.2.setPc (cat h.1 l.1)

theorem State.pullPc_cpu (s : State) :
    s.pullPc.cpu = { s.cpu with
      s := s.cpu.s + 2#8, pc := cat (s.stackByte (s.cpu.s + 2#8)) (s.stackByte (s.cpu.s + 1#8)) } := by
  simp [State.pullPc, State.readStackStep_value, State.readStack_value, BitVec.add_assoc]

theorem takes_pullPc (s : State) : TakesIdle 4 s s.pullPc :=
  have hlow := ((takes_dummyFetch s).trans (takes_stackStep _)).trans (takes_readStackStep _)
  (hlow.trans (takes_readStack _)).trans (takes_setPc _ _)

/-- RTS's last cycle: a dummy read at the pulled address, then PC goes one past it. -/
def State.stepPastCall (s : State) : State := s.dummyFetch.setPc (s.cpu.pc + 1#16)

theorem exec_rts (s : State) : exec .rts s = .next s.pullPc.stepPastCall := rfl

theorem State.rts_cpu (s : State) :
    s.pullPc.stepPastCall.cpu = { s.cpu with
      s := s.cpu.s + 2#8, pc := cat (s.stackByte (s.cpu.s + 2#8)) (s.stackByte (s.cpu.s + 1#8)) + 1#16 } :=
  congrArg (fun c : Cpu => { c with pc := c.pc + 1#16 }) s.pullPc_cpu

theorem State.rts_keepsMemory (s : State) : KeepsMemory s s.pullPc.stepPastCall := by
  apply KeepsMemory.of_mem <;> simp [State.stepPastCall, State.pullPc]

theorem takes_rts (s : State) : TakesIdle 5 s s.pullPc.stepPastCall :=
  ((takes_pullPc s).trans (takes_dummyFetch _)).trans (takes_setPc _ _)

/-- Settles O36: the return address is two pushes, so only their bytes change, and the pulls read their bytes back. -/
theorem subroutines : Obligations.Subroutines := by
  unfold Obligations.Subroutines
  refine ⟨by decide, fun s => ⟨fun hs => ?_, ?_⟩⟩
  · obtain ⟨hhigh, hlow⟩ := State.endCall_stackByte hs
    have hframe := s.beginCall_keepsAllButStack.then_keepsMemory s.endCall_keepsMemory
    exact ⟨_, exec_jsr s, s.endCall_cpu, hhigh, hlow, hframe, (takes_endCall s).takes, s.endCall_pc⟩
  · exact ⟨_, exec_rts s, s.rts_cpu, s.rts_keepsMemory, (takes_rts s).takes⟩

/-! ### O37: RTI (R210) -/

theorem State.returnFromInterrupt_cpu (s : State) :
    s.returnFromInterrupt.cpu = { s.cpu with
      s := s.cpu.s + 3#8
      p := pulledStatus (s.stackByte (s.cpu.s + 1#8))
      pc := cat (s.stackByte (s.cpu.s + 3#8)) (s.stackByte (s.cpu.s + 2#8)) } := by
  simp [State.returnFromInterrupt, State.readStackStep_value, State.readStack_value, BitVec.add_assoc]

theorem takes_returnFromInterrupt (s : State) : TakesIdle 4 s s.returnFromInterrupt :=
  have hstatus := (takes_stackStep s).trans (takes_readStackStep _)
  have hlow := (hstatus.trans (takes_setP _ _)).trans (takes_readStackStep _)
  (hlow.trans (takes_readStack _)).trans (takes_setPc _ _)

/-- RTI: the dummy read at PC, then the return. -/
theorem exec_rti (s : State) : exec .rti s = .next s.dummyFetch.returnFromInterrupt := rfl

theorem State.rti_cpu (s : State) :
    s.dummyFetch.returnFromInterrupt.cpu = { s.cpu with
      s := s.cpu.s + 3#8
      p := pulledStatus (s.stackByte (s.cpu.s + 1#8))
      pc := cat (s.stackByte (s.cpu.s + 3#8)) (s.stackByte (s.cpu.s + 2#8)) } := by
  simp only [State.returnFromInterrupt_cpu, State.dummyFetch_cpu, State.dummyFetch_stackByte]

theorem State.rti_keepsMemory (s : State) : KeepsMemory s s.dummyFetch.returnFromInterrupt := by
  apply KeepsMemory.of_mem <;> simp [State.returnFromInterrupt]

/-- Settles O37: the three pulls read page 1 above S, whatever stands there. -/
theorem returnFromInterrupt : Obligations.ReturnFromInterrupt := by
  unfold Obligations.ReturnFromInterrupt
  refine ⟨by decide, fun s => ⟨_, exec_rti s, s.rti_cpu, s.rti_keepsMemory, ?_⟩⟩
  exact ((takes_dummyFetch s).trans (takes_returnFromInterrupt _)).takes

/-! ### O38: BRK (R211) -/

/-- BRK: the padding byte is fetched, then the entry. -/
theorem exec_brk (s : State) : exec .brk s = .next (s.fetch.2.enterHandler .brk) := rfl

theorem State.brk_cpu (s : State) :
    (s.fetch.2.enterHandler .brk).cpu =
      { s.cpu with s := s.cpu.s - 3#8, p := s.cpu.p ||| 0x04#8, pc := (s.fetch.2.enterHandler .brk).cpu.pc } :=
  (s.fetch.2.enterHandler_cpu .brk).trans (by rw [State.fetch_cpu])

theorem State.brk_stackByte {s : State} (hs : s.MemoryOk) :
    (s.fetch.2.enterHandler .brk).stackByte s.cpu.s = hi (s.cpu.pc + 1#16) ∧
      (s.fetch.2.enterHandler .brk).stackByte (s.cpu.s - 1#8) = lo (s.cpu.pc + 1#16) ∧
      (s.fetch.2.enterHandler .brk).stackByte (s.cpu.s - 2#8) = s.cpu.p ||| 0x30#8 := by
  have hbytes := State.enterHandler_stackByte (s := s.fetch.2) .brk hs.1
  rwa [State.fetch_cpu] at hbytes

theorem State.brk_keepsAllButStack (s : State) :
    KeepsAllButStack [s.cpu.s, s.cpu.s - 1#8, s.cpu.s - 2#8] s (s.fetch.2.enterHandler .brk) := by
  have hentry := s.fetch.2.enterHandler_keepsAllButStack .brk
  rw [State.fetch_cpu] at hentry
  exact s.fetch_keepsMemory.then_keepsAllButStack hentry

theorem State.brk_pc (s : State) :
    (s.fetch.2.enterHandler .brk).cpu.pc =
      if (s.fetch.2.pushPc.push (s.cpu.p ||| 0x30#8)).dev.nmiRequest then s.peekWord 0xFFFA#16 0xFFFB#16
      else s.peekWord 0xFFFE#16 0xFFFF#16 := by
  have hsame := (State.SamePeek.refl s).fetch.cart
  have hpushed : s.fetch.2.pushEntry .brk = s.fetch.2.pushPc.push (s.cpu.p ||| 0x30#8) := rfl
  rw [State.enterHandler_pc, hpushed, hsame.peekWord (by decide) (by decide), hsame.peekWord (by decide) (by decide)]
  simp only [reduceCtorEq, false_or]

/-- Settles O38: BRK is a fetch and an entry. (The obligation's own name is a keyword of Lean.) -/
theorem break' : Obligations.Break := by
  unfold Obligations.Break
  refine ⟨by decide, fun s hs => ?_⟩
  obtain ⟨hhigh, hlow, hstatus⟩ := State.brk_stackByte hs
  have htime := (takes_fetch s).trans (takes_enterHandler .brk _)
  exact ⟨_, exec_brk s, s.brk_cpu, hhigh, hlow, hstatus, s.brk_keepsAllButStack, htime.takes, s.brk_pc⟩

/-! ### O40: returns (R223, R502) -/

theorem cat_hi_lo (w : Word) : cat (hi w) (lo w) = w := by
  refine BitVec.eq_of_toNat_eq ?_
  rw [toNat_cat, toNat_hi, toNat_lo]
  omega

/-- Of a legal status nothing is lost on the stack. -/
theorem pulledStatus_pushedStatus (k : Interrupt) {p : Byte} (hp : p &&& 0x30#8 = 0x20#8) :
    pulledStatus (k.pushedStatus p) = p := by
  revert p
  cases k <;> decide

/-- RTI after an entry, whoever entered, gives the registers back. -/
theorem State.rti_enterHandler_cpu (s : State) (k : Interrupt) (hs : s.mem.wf = true) (hp : s.StatusOk) :
    (s.enterHandler k).dummyFetch.returnFromInterrupt.cpu = s.cpu := by
  obtain ⟨hhigh, hlow, hstatus⟩ := State.enterHandler_stackByte k hs
  have hsp : (s.enterHandler k).cpu.s = s.cpu.s - 3#8 := congrArg Cpu.s (s.enterHandler_cpu k)
  have hfirst : s.cpu.s - 3#8 + 1#8 = s.cpu.s - 2#8 := by bv_omega
  have hsecond : s.cpu.s - 3#8 + 2#8 = s.cpu.s - 1#8 := by bv_omega
  have hthird : s.cpu.s - 3#8 + 3#8 = s.cpu.s := by bv_omega
  rw [State.rti_cpu, hsp, hfirst, hsecond, hthird, hhigh, hlow, hstatus, cat_hi_lo, pulledStatus_pushedStatus k hp,
    s.enterHandler_cpu k]

/-- RTS after JSR goes to the instruction after the JSR. -/
theorem State.rts_endCall_cpu {s : State} (hs : s.MemoryOk) :
    s.endCall.pullPc.stepPastCall.cpu = { s.cpu with pc := s.cpu.pc + 2#16 } := by
  obtain ⟨hhigh, hlow⟩ := State.endCall_stackByte hs
  have hsp : s.endCall.cpu.s = s.cpu.s - 2#8 := congrArg Cpu.s s.endCall_cpu
  have hfirst : s.cpu.s - 2#8 + 1#8 = s.cpu.s - 1#8 := by bv_omega
  have hsecond : s.cpu.s - 2#8 + 2#8 = s.cpu.s := by bv_omega
  have hpc : s.cpu.pc + 1#16 + 1#16 = s.cpu.pc + 2#16 := by bv_omega
  rw [State.rts_cpu, hsp, hfirst, hsecond, hhigh, hlow, cat_hi_lo, hpc, s.endCall_cpu]

/-- Settles O40: each return pulls exactly the bytes its entry pushed. -/
theorem returnsRestore : Obligations.ReturnsRestore := by
  unfold Obligations.ReturnsRestore
  intro s hs hp
  refine ⟨fun t ht => ?_, fun t ht => ?_, fun k _ => ?_⟩
  · obtain rfl : s.endCall = t := Host.Outcome.next.inj ht
    exact ⟨_, exec_rts _, State.rts_endCall_cpu hs⟩
  · obtain rfl : s.fetch.2.enterHandler .brk = t := Host.Outcome.next.inj ht
    exact ⟨_, exec_rti _, s.fetch.2.rti_enterHandler_cpu .brk hs.1 hp⟩
  · exact ⟨_, exec_rti _, s.dummyFetch.dummyFetch.rti_enterHandler_cpu k hs.1 hp⟩

/-! ### O41: branches (R214 to R222) -/

theorem State.takeBranch_cpu (c1 : Bool) (next target : Word) (s : State) :
    (s.takeBranch c1 next target).cpu = { s.cpu with pc := target } := by
  unfold State.takeBranch
  dsimp only
  split <;> rfl

theorem State.takeBranch_keepsMemory (c1 : Bool) (next target : Word) (s : State) :
    KeepsMemory s (s.takeBranch c1 next target) := by
  unfold State.takeBranch
  dsimp only
  split <;> exact .of_mem rfl rfl rfl

theorem takes_takeBranch (c1 : Bool) (next target : Word) (s : State) :
    TakesIdle (if hi target = hi next then 1 else 2) s (s.takeBranch c1 next target) := by
  unfold State.takeBranch
  dsimp only
  split
  case isTrue => exact (takes_dummyFetch s).of_dev rfl
  case isFalse => exact ((takes_dummyFetch s).trans (takes_dummyRead _ _)).of_dev rfl

/-- The eight branches, each with its flag and the value that takes it. -/
theorem exec_branch {s : State} {i : Instr} {k : Nat} {b : Bool}
    (hmem : (i, k, b) ∈ [(Instr.bpl, flagN, false), (.bmi, flagN, true), (.bvc, flagV, false), (.bvs, flagV, true),
      (.bcc, flagC, false), (.bcs, flagC, true), (.bne, flagZ, false), (.beq, flagZ, true)]) :
    exec i s = .next (s.branch (bitOf s.cpu.p k == b)) := by
  simp only [List.mem_cons, Prod.mk.injEq, List.not_mem_nil, or_false] at hmem
  rcases hmem with ⟨rfl, rfl, rfl⟩ | ⟨rfl, rfl, rfl⟩ | ⟨rfl, rfl, rfl⟩ | ⟨rfl, rfl, rfl⟩ | ⟨rfl, rfl, rfl⟩ |
    ⟨rfl, rfl, rfl⟩ | ⟨rfl, rfl, rfl⟩ | ⟨rfl, rfl, rfl⟩
  all_goals
    simp only [beq_false, beq_true]
    rfl

/-- Settles O41: a branch is the operand's fetch, and if it is taken one or two reads more and the jump. -/
theorem branches : Obligations.Branches := by
  unfold Obligations.Branches
  refine ⟨by decide, fun s i k b hmem => ⟨_, exec_branch hmem, ?_⟩⟩
  by_cases htaken : bitOf s.cpu.p k = b
  · rw [beq_iff_eq.2 htaken]
    let target := s.cpu.pc + 1#16 + sext s.fetch.1
    have htime := (takes_fetch s).trans (takes_takeBranch s.poll.last (s.cpu.pc + 1#16) target s.fetch.2)
    refine ⟨s.fetch.2.takeBranch_keepsMemory _ _ _, fun _ => ⟨s.fetch.2.takeBranch_cpu _ _ _, ?_⟩, (absurd htaken ·)⟩
    have hcycles : (if hi target = hi (s.cpu.pc + 1#16) then 2 else 3) =
        1 + if hi target = hi (s.cpu.pc + 1#16) then 1 else 2 := by split <;> rfl
    exact hcycles ▸ htime.takes
  · rw [beq_eq_false_iff_ne.2 htaken]
    exact ⟨s.fetch_keepsMemory, (absurd · htaken), fun _ => ⟨rfl, (takes_fetch s).takes⟩⟩

end Sys2Proof.Machine
end

section
/-! Flag instructions and no-operations (45_flags_nop.md R226 to R233, 46_unofficial.md R258 to R261): a dummy read at PC
or an operand's reads, and after them at most one flag changes. -/

namespace Sys2Proof.Machine

/-! ### O43: NOP and the unofficial NOPs (R233, R258 to R261) -/

theorem Cpu.advance_zero (c : Cpu) : c.advance 0 = c := by
  rw [Cpu.advance, BitVec.add_zero]

/-- The one-byte NOPs are the dummy read at PC. -/
theorem exec_oneByteNop {i : Instr} {s : State} (hexec : exec i s = .next s.dummyFetch) :
    ∃ t, exec i s = .next t ∧ t.cpu = s.cpu.advance 0 ∧ KeepsMemory s t ∧ Takes 1 s t :=
  ⟨_, hexec, s.cpu.advance_zero.symm, s.read_keepsMemory s.cpu.pc, (takes_dummyFetch s).takes⟩

/-- The others are a read-class instruction that makes nothing of its operand. -/
theorem exec_readingNop {i : Instr} {m : ReadMode} {s : State}
    (hexec : exec i s = .next (s.readThen m fun _ c => c)) :
    ∃ t, exec i s = .next t ∧ t.cpu = s.cpu.advance m.operandBytes ∧ KeepsMemory s t ∧
      Takes (s.operandCycles m) s t :=
  ⟨_, hexec, s.readThen_cpu m _, s.readThen_keepsMemory m _, s.takes_readThen m _⟩

/-- Settles O43: a NOP is a dummy read or the reads of its mode, and these move PC alone. -/
theorem noOperations : Obligations.NoOperations := by
  unfold Obligations.NoOperations
  refine ⟨by decide, by decide, by decide, by decide, fun s op i n cycles hmem => ?_⟩
  simp only [List.mem_cons, Prod.mk.injEq, List.not_mem_nil, or_false] at hmem
  rcases hmem with ⟨rfl, rfl, rfl⟩ | ⟨rfl, rfl, rfl⟩ | ⟨rfl, rfl, rfl⟩ | ⟨rfl, rfl, rfl⟩ | ⟨rfl, rfl, rfl⟩ |
    ⟨rfl, rfl, rfl⟩ | ⟨rfl, rfl, rfl⟩
  · exact exec_oneByteNop rfl
  · exact exec_oneByteNop rfl
  · exact exec_readingNop (m := .immediate) rfl
  · exact exec_readingNop (m := .mem .zeropage) rfl
  · exact exec_readingNop (m := .mem .zeropageX) rfl
  · exact exec_readingNop (m := .mem .absolute) rfl
  · exact exec_readingNop (m := .mem .absoluteX) rfl

/-! ### O42: the flag instructions (R226 to R232) -/

/-- The seven flag instructions, each with its flag and the value it gives it. -/
theorem exec_flagInstruction {s : State} {i : Instr} {k : Nat} {b : Bool}
    (hmem : (i, k, b) ∈ [(Instr.clc, flagC, false), (.sec, flagC, true), (.cli, flagI, false), (.sei, flagI, true),
      (.clv, flagV, false), (.cld, flagD, false), (.sed, flagD, true)]) :
    k < 8 ∧ exec i s = .next (s.dummyFetchThen { s.cpu with p := setFlag k b s.cpu.p }) := by
  simp only [List.mem_cons, Prod.mk.injEq, List.not_mem_nil, or_false] at hmem
  rcases hmem with ⟨rfl, rfl, rfl⟩ | ⟨rfl, rfl, rfl⟩ | ⟨rfl, rfl, rfl⟩ | ⟨rfl, rfl, rfl⟩ | ⟨rfl, rfl, rfl⟩ |
    ⟨rfl, rfl, rfl⟩ | ⟨rfl, rfl, rfl⟩
  all_goals exact ⟨by decide, rfl⟩

theorem bitOf_setFlag_self {k : Nat} (hk : k < 8) (b : Bool) (p : Byte) : bitOf (setFlag k b p) k = b :=
  (bitOf_setFlag k k hk hk b p).trans (if_pos rfl)

/-- Settles O42: each is one dummy read and one `setFlag` on P. -/
theorem flagInstructions : Obligations.FlagInstructions := by
  unfold Obligations.FlagInstructions
  refine ⟨by decide, fun s i k b hmem => ?_⟩
  obtain ⟨hk, hexec⟩ := exec_flagInstruction (s := s) hmem
  exact ⟨_, hexec, rfl, bitOf_setFlag_self hk b _, (FlagsKept.refl [k] _).setFlag b hk List.mem_cons_self,
    s.dummyFetchThen_keepsMemory _, s.takes_dummyFetchThen _⟩

end Sys2Proof.Machine
end

section
/-! The unofficial opcodes (46_unofficial.md R237 to R262): loads and immediates are the read class with their own
function of the registers, the combined read-modify-write instructions are the class's sequence around two operations,
and the SH* stores are the write class with an address and a byte of their own. -/

namespace Sys2Proof.Machine

/-! ### The read class with a new status -/

/-- What a read-class instruction does: `f` makes the registers, and `R` holds of the status it makes. -/
theorem exec_readThen {i : Instr} {m : ReadMode} {f : Byte → Cpu → Cpu} {R : Byte → Prop} {s : State}
    (hexec : exec i s = .next (s.readThen m f)) (hR : R (f (s.load m).1 (s.cpu.advance m.operandBytes)).p) :
    ∃ t, exec i s = .next t ∧
      t.cpu = { f (s.load m).1 (s.cpu.advance m.operandBytes) with p := t.cpu.p } ∧
      R t.cpu.p ∧ KeepsMemory s t ∧ Takes (s.operandCycles m) s t := by
  have hcpu := s.readThen_cpu m f
  refine ⟨_, hexec, ?_, ?_, s.readThen_keepsMemory m f, s.takes_readThen m f⟩
  · rw [hcpu]
  · rwa [hcpu]

/-! ### O21: LAX and LAS (R242, R256) -/

/-- LAS's registers: the operand ANDed with S goes to A, X and S. -/
def putLas : Byte → Cpu → Cpu := fun v c =>
  { c with a := v &&& c.s, x := v &&& c.s, s := v &&& c.s, p := setNZ (v &&& c.s) c.p }

theorem exec_las (s : State) : exec .las s = .next (s.readThen (.mem .absoluteY) putLas) := rfl

/-- Settles O21: LAX is a load into two registers; LAS's N and Z come from the AND it loads. -/
theorem unofficialLoads : Obligations.UnofficialLoads := by
  unfold Obligations.UnofficialLoads
  refine ⟨by decide, fun m s => ⟨?_, ?_⟩⟩
  · exact exec_load (m := .mem m) (put := fun v c => { c with a := v, x := v }) rfl
  · exact exec_readThen (exec_las s) (setsNZ_setNZ ((s.loadMem .absoluteY).1 &&& s.cpu.s) s.cpu.p)

/-! ### Status bytes built in two steps -/

theorem FlagsKept.trans {ks : List Nat} {p q r : Byte} (h : FlagsKept ks p q) (h' : FlagsKept ks q r) :
    FlagsKept ks p r := fun k hk hother => (h' k hk hother).trans (h k hk hother)

/-- `setNZ` after any change of N, Z and C leaves that change's C. -/
theorem setsNZC_setNZ {c : Bool} {p q : Byte} (hC : bitOf q flagC = c) (hkept : FlagsKept [flagN, flagZ, flagC] p q)
    (v : Byte) : SetsNZC v c p (setNZ v q) :=
  ⟨bitOf_setNZ flagN (by decide) v q, bitOf_setNZ flagZ (by decide) v q,
    (bitOf_setNZ flagC (by decide) v q).trans hC, hkept.setNZ v⟩

theorem bitOf_setNZ_carry (v p : Byte) : bitOf (setNZ v p) flagC = bitOf p flagC := bitOf_setNZ flagC (by decide) v p

/-! ### The unofficial read-modify-write instructions (R236) -/

/-- What such an instruction does: `r` is the first operation's result on the old byte; it is stored, and it and its
status go to the operation on A. -/
theorem exec_modify_rmwThenAlu {i : Instr} {m : AddrMode} {f : Byte → Byte → AluResult}
    {g : Byte → Byte → Byte → AluResult} {r : AluResult} {s : State}
    (hexec : exec i s = .next (s.modify m (rmwThenAlu f g))) (hf : f (s.beginModify m).value s.cpu.p = r) :
    ∃ t, exec i s = .next t ∧ t.cpu.a = (g s.cpu.a r.value r.p).value ∧ t.cpu.p = (g s.cpu.a r.value r.p).p ∧
      (s.MemoryOk → (s.effectiveAddr m).1 ≠ 0x4014#16 →
        ∀ l, (s.beginModify m).state.WritesTo (s.effectiveAddr m).1 l → t.byteAt l = l.kept r.value) := by
  have hcpu := s.modify_cpu m (rmwThenAlu f g)
  subst hf
  refine ⟨_, hexec, ?_, ?_, fun hs hea l => State.modify_byteAt_self m (rmwThenAlu f g) hs hea⟩
  · rw [hcpu]
    rfl
  · rw [hcpu]
    rfl

/-! ### O33: SLO, RLA, SRE (R237 to R239) -/

/-- The three instructions, each with its shift of the old byte `v` and the new A. -/
theorem exec_shiftAndLogic {m : AddrMode} {v : Byte} {s : State} {i : Instr} {r : ShiftSpec} {a : Byte}
    (hi : (i, r, a) ∈ [(Instr.slo m, aslSpec v, s.cpu.a ||| (aslSpec v).value),
      (.rla m, rolSpec v (bitOf s.cpu.p flagC), s.cpu.a &&& (rolSpec v (bitOf s.cpu.p flagC)).value),
      (.sre m, lsrSpec v, s.cpu.a ^^^ (lsrSpec v).value)]) :
    ∃ f g, exec i s = .next (s.modify m (rmwThenAlu f g)) ∧ f v s.cpu.p = r.result s.cpu.p ∧
      ∀ p, g s.cpu.a r.value p = resultNZ a p := by
  simp only [List.mem_cons, Prod.mk.injEq, List.not_mem_nil, or_false] at hi
  rcases hi with ⟨rfl, rfl, rfl⟩ | ⟨rfl, rfl, rfl⟩ | ⟨rfl, rfl, rfl⟩
  · exact ⟨asl, _, rfl, asl_eq v _, fun _ => rfl⟩
  · exact ⟨rol, _, rfl, rol_eq v _, fun _ => rfl⟩
  · exact ⟨lsr, _, rfl, lsr_eq v _, fun _ => rfl⟩

/-- Settles O33: the shift's C survives the N and Z of the operation on A. -/
theorem unofficialShiftAndLogic : Obligations.UnofficialShiftAndLogic := by
  unfold Obligations.UnofficialShiftAndLogic
  refine ⟨by decide, by decide, by decide, ?_⟩
  intro m s i r a ea v w rot hi
  obtain ⟨f, g, hexec, hf, hg⟩ := exec_shiftAndLogic hi
  obtain ⟨t, hnext, hA, hP, hstored⟩ := exec_modify_rmwThenAlu hexec hf
  obtain ⟨-, -, hC, hkept⟩ := r.setsNZC_result s.cpu.p
  refine ⟨t, hnext, hA.trans (congrArg AluResult.value (hg _)), ?_, hstored⟩
  rw [hP.trans (congrArg AluResult.p (hg _))]
  exact setsNZC_setNZ hC hkept a

/-! ### O34: RRA, DCP, ISC (R240, R243, R244) -/

/-- A compare takes nothing from the N, Z and C it starts with. -/
theorem Compares.of_flagsKept {r m p p' q : Byte} (h : Compares r m p' q)
    (hkept : FlagsKept [flagN, flagZ, flagC] p p') : Compares r m p q := by
  obtain ⟨hC, hZ, hN, hrest⟩ := h
  exact ⟨hC, hZ, hN, hkept.trans hrest⟩

/-- A subtraction takes only C from the N, V, Z and C it starts with. -/
theorem SubtractsWithBorrow.of_flagsKept {a m p p' r q : Byte} (h : SubtractsWithBorrow a m p' r q)
    (hC : bitOf p' flagC = bitOf p flagC) (hkept : FlagsKept [flagN, flagV, flagZ, flagC] p p') :
    SubtractsWithBorrow a m p r q := by
  obtain ⟨hdiff, hV, hN, hZ, hrest⟩ := h
  rw [hC] at hdiff hV
  exact ⟨hdiff, hV, hN, hZ, hkept.trans hrest⟩

theorem subtractsWithBorrow_sbc (a m p : Byte) : SubtractsWithBorrow a m p (sbc a m p).value (sbc a m p).p :=
  subtractsWithBorrow_of_addsWithCarry (addsWithCarry_adc a (m ^^^ 0xFF#8) p)

/-- Settles O34: ADC, CMP and SBC run on the stored byte and the first operation's status. -/
theorem unofficialModifyAndArithmetic : Obligations.UnofficialModifyAndArithmetic := by
  unfold Obligations.UnofficialModifyAndArithmetic
  refine ⟨by decide, by decide, by decide, ?_⟩
  intro m s ea v w rot stored
  refine ⟨?rra, ?dcp, ?isc⟩
  case rra =>
    obtain ⟨t, hnext, hA, hP, hstored⟩ :=
      exec_modify_rmwThenAlu (i := .rra m) (f := ror) (g := adc) (s := s) rfl (ror_eq v s.cpu.p)
    obtain ⟨-, -, hC, -⟩ := rot.setsNZC_result s.cpu.p
    refine ⟨t, (rot.result s.cpu.p).p, hnext, hC, ((FlagsKept.refl _ _).setFlag _).setNZ _, ?_, hstored⟩
    rw [hA, hP]
    exact addsWithCarry_adc _ _ _
  case dcp =>
    obtain ⟨t, hnext, hA, hP, hstored⟩ := exec_modify_rmwThenAlu (i := .dcp m) (f := dec) (s := s) rfl rfl
    refine ⟨t, hnext, hA, ?_, hstored⟩
    rw [hP]
    exact (compares_compare _ _ _).of_flagsKept ((FlagsKept.refl _ _).setNZ _)
  case isc =>
    obtain ⟨t, hnext, hA, hP, hstored⟩ :=
      exec_modify_rmwThenAlu (i := .isc m) (f := inc) (g := sbc) (s := s) rfl rfl
    refine ⟨t, hnext, ?_, hstored⟩
    rw [hA, hP]
    exact (subtractsWithBorrow_sbc _ _ _).of_flagsKept (bitOf_setNZ_carry _ _) ((FlagsKept.refl _ _).setNZ _)

/-! ### O44: the immediates (R245 to R250) -/

theorem exec_anc (op : Byte) (s : State) : exec (.anc op) s = .next (s.readThen .immediate (accumulate anc)) := rfl

/-- ANC sets C after N and Z (R245). -/
theorem setsNZC_anc (a m p : Byte) : SetsNZC (a &&& m) (bitOf (a &&& m) 7) p (anc a m p).p := by
  obtain ⟨hN, hZ, -⟩ := setsNZ_setNZ (a &&& m) p
  refine ⟨?_, ?_, bitOf_setFlag_self (by decide) _ _, ((FlagsKept.refl _ p).setNZ _).setFlag _⟩
  · exact (bitOf_setFlag flagC flagN (by decide) (by decide) _ _).trans hN
  · exact (bitOf_setFlag flagC flagZ (by decide) (by decide) _ _).trans hZ

/-- ALR on nine bits. -/
theorem alr_eq : alr = fun a m p => (lsrSpec (a &&& m)).result p := funext₃ fun a m => lsr_eq (a &&& m)

theorem exec_alr (s : State) :
    exec .alr s = .next (s.readThen .immediate (accumulate fun a m p => (lsrSpec (a &&& m)).result p)) := by
  rw [← alr_eq]
  rfl

/-- ARR's result `r` and the status after it (R247). -/
def arrResult (r p : Byte) : AluResult :=
  ⟨r, setFlag flagV (bitOf r 6 ^^ bitOf r 5) (setFlag flagC (bitOf r 6) (setNZ r p))⟩

/-- ARR on nine bits. -/
theorem arr_eq : arr = fun a m p => arrResult (rorSpec (a &&& m) (bitOf p flagC)).value p := by
  funext a m p
  rw [arr, ushiftRight_one_or_bitAt]
  rfl

theorem exec_arr (s : State) :
    exec .arr s = .next (s.readThen .immediate
      (accumulate fun a m p => arrResult (rorSpec (a &&& m) (bitOf p flagC)).value p)) := by
  rw [← arr_eq]
  rfl

/-- The flags of ARR from its result `r` (R247). -/
def ArrFlags (r p q : Byte) : Prop :=
  bitOf q flagN = bitOf r 7 ∧ bitOf q flagZ = (r == 0#8) ∧ bitOf q flagC = bitOf r 6 ∧
    bitOf q flagV = (bitOf r 6 ^^ bitOf r 5) ∧ FlagsKept [flagN, flagV, flagZ, flagC] p q

theorem arrFlags_arrResult (r p : Byte) : ArrFlags r p (arrResult r p).p := by
  refine ⟨?_, ?_, ?_, ?_, (((FlagsKept.refl _ p).setNZ _).setFlag _).setFlag _⟩
  all_goals simp (disch := decide) [arrResult, bitOf_setNZ, bitOf_setFlag]

/-- AXS's result and status go to X and P. -/
def putAxs : Byte → Cpu → Cpu := fun v c => { c with x := (axs c.a c.x v c.p).value, p := (axs c.a c.x v c.p).p }

theorem exec_axs (s : State) : exec .axs s = .next (s.readThen .immediate putAxs) := rfl

theorem setsNZC_axs (a x m p : Byte) :
    SetsNZC ((a &&& x) - m) (decide (m.toNat ≤ (a &&& x).toNat)) p (axs a x m p).p :=
  setsNZC_setNZ (bitOf_setFlag_self (by decide) _ _) ((FlagsKept.refl _ p).setFlag _) _

/-- ANE's registers, with `ANE_CONST` = `k`. -/
def putAne (k : Byte) : Byte → Cpu → Cpu := fun v c =>
  { c with a := (ane k c.a c.x v c.p).value, p := (ane k c.a c.x v c.p).p }

theorem exec_ane (s : State) : exec .ane s = .next (s.readThen .immediate (putAne s.params.aneConst)) := rfl

/-- LXA's registers, with `LXA_CONST` = `k`. -/
def putLxa (k : Byte) : Byte → Cpu → Cpu := fun v c =>
  { c with a := (lxa k c.a v c.p).value, x := (lxa k c.a v c.p).value, p := (lxa k c.a v c.p).p }

theorem exec_lxa (s : State) : exec .lxa s = .next (s.readThen .immediate (putLxa s.params.lxaConst)) := rfl

/-- The constant 0xFF hides A from LXA. -/
theorem or_ones_and (a m : Byte) : (a ||| 0xFF#8) &&& m = m := by
  rw [show (0xFF#8 : Byte) = BitVec.allOnes 8 from rfl, BitVec.or_allOnes, BitVec.allOnes_and]

/-- Settles O44: each is the fetch of its operand and one change of the registers; for ANE and LXA that change has the
constant as a parameter. -/
theorem unofficialImmediates : Obligations.UnofficialImmediates := by
  unfold Obligations.UnofficialImmediates
  refine ⟨by decide, ?_⟩
  intro s op m c pc' arrValue
  refine ⟨?anc, ?alr, ?arr, ?axs, ?ane, ?lxa⟩
  case anc => exact exec_readThen (exec_anc op s) (setsNZC_anc c.a m c.p)
  case alr =>
    rw [bitOf_zero]
    exact exec_readThen (exec_alr s) ((lsrSpec (c.a &&& m)).setsNZC_result c.p)
  case arr =>
    obtain ⟨t, hnext, hcpu, ⟨hN, hZ, hC, hV, hkept⟩, hmem, htime⟩ :=
      exec_readThen (exec_arr s) (arrFlags_arrResult arrValue c.p)
    exact ⟨t, hnext, hcpu, hN, hZ, hC, hV, hkept, hmem, htime⟩
  case axs => exact exec_readThen (exec_axs s) (setsNZC_axs c.a c.x m c.p)
  case ane =>
    obtain ⟨t, hnext, hcpu, hflags, hmem, htime⟩ :=
      exec_readThen (exec_ane s) (setsNZ_setNZ ((c.a ||| s.params.aneConst) &&& c.x &&& m) c.p)
    have ha : t.cpu.a = (c.a ||| s.params.aneConst) &&& c.x &&& m := congrArg Cpu.a hcpu
    refine ⟨t, hnext, hcpu, fun hm => ?_, ha ▸ hflags, hmem, htime⟩
    rw [ha, hm]
    exact BitVec.and_zero
  case lxa =>
    obtain ⟨t, hnext, hcpu, hflags, hmem, htime⟩ :=
      exec_readThen (exec_lxa s) (setsNZ_setNZ ((c.a ||| s.params.lxaConst) &&& m) c.p)
    have ha : t.cpu.a = (c.a ||| s.params.lxaConst) &&& m := congrArg Cpu.a hcpu
    refine ⟨t, hnext, hcpu, fun hk => ?_, ha ▸ hflags, hmem, htime⟩
    rw [ha, hk]
    exact or_ones_and c.a m

/-! ### O45: the SH* stores (R252 to R255, R257) -/

/-- The write class with another address than the mode's: its address cycles, then `Write(a, v)`. -/
def State.storeAt (m : AddrMode) (a : Word) (v : Byte) (s : State) : State := (s.effectiveAddr m).2.write a v

theorem State.storeAt_cpu (m : AddrMode) (a : Word) (v : Byte) (s : State) :
    (s.storeAt m a v).cpu = s.cpu.advance m.operandBytes :=
  (State.write_cpu a v _).trans (s.effectiveAddr_cpu m)

theorem State.storeAt_keepsAllBut (m : AddrMode) (a : Word) (v : Byte) (s : State) :
    KeepsAllBut (s.effectiveAddr m).2 a s (s.storeAt m a v) := by
  obtain ⟨hmem, hparams, hcart⟩ := s.effectiveAddr_frame m
  refine ⟨fun l hl => ?_, (State.write_cart a v _).trans hcart, (State.write_params a v _).trans hparams⟩
  exact (State.write_byteAt_other v _ hl).trans (congrArg (Memories.byteAt · l) hmem)

theorem State.takes_storeAt (m : AddrMode) {a : Word} (ha : a ≠ 0x4014#16) (v : Byte) (s : State) :
    Takes (writeCycles m) s (s.storeAt m a v) := by
  intro hidle
  have haddr := (takes_effectiveAddr m s).takes hidle
  have hwrite : (s.storeAt m a v).dev.cycles = (s.effectiveAddr m).2.dev.cycles + 1 := State.write_cycles ha v _
  have hpos : 0 < writeCycles m := by cases m <;> decide
  omega

/-- R257's address and byte, with `n` stall cycles pending at the dummy read. -/
theorem shStore_eq (n : Nat) (base : Word) (i r : Byte) :
    shStore (decide (0 < n)) base i r =
      (if 0xFF < (lo base).toNat + i.toNat then cat (hi (base + zext i) &&& r) (lo (base + zext i)) else base + zext i,
        if n = 0 then r &&& (hi base + 1#8) else r) := by
  have hcross : pageCrossed base i = decide (0xFF < (lo base).toNat + i.toNat) := rfl
  unfold shStore
  rw [hcross]
  cases n with
  | zero => simp [indexed]
  | succ n => simp [indexed]

/-- The modes of the SH* stores: those that may cross a page (R134). -/
def mayCrossPage (m : AddrMode) : Bool := m matches .absoluteX | .absoluteY | .indirectIndexed

/-- An SH* store is the write class of its mode, with R257's address and byte. -/
theorem State.storeHigh_eq {m : AddrMode} (hm : mayCrossPage m = true) (r : Byte) (s : State) :
    let b := s.indexBase m
    let w := shStore (decide (0 < b.2.dev.stall)) b.1 (s.cpu.indexOf m) r
    s.storeHigh m r = s.storeAt m w.1 w.2 ∧
      (s.effectiveAddr m).2 = b.2.dummyRead (uncarried b.1 (s.cpu.indexOf m)) := by
  cases m
  case absoluteX | absoluteY | indirectIndexed => exact ⟨rfl, rfl⟩
  all_goals exact Bool.noConfusion hm

/-- The five instructions: mode, register operand, and S after it, which only SHS changes. -/
theorem exec_storeHigh {s : State} {i : Instr} {m : AddrMode} {r sp : Byte}
    (hi : (i, m, r, sp) ∈ [(Instr.sha .absoluteY, AddrMode.absoluteY, s.cpu.a &&& s.cpu.x, s.cpu.s),
      (.sha .indirectIndexed, .indirectIndexed, s.cpu.a &&& s.cpu.x, s.cpu.s), (.shx, .absoluteY, s.cpu.x, s.cpu.s),
      (.shy, .absoluteX, s.cpu.y, s.cpu.s), (.shs, .absoluteY, s.cpu.a &&& s.cpu.x, s.cpu.a &&& s.cpu.x)]) :
    mayCrossPage m = true ∧ exec i s = .next ((s.setS sp).storeHigh m r) := by
  simp only [List.mem_cons, Prod.mk.injEq, List.not_mem_nil, or_false] at hi
  rcases hi with ⟨rfl, rfl, rfl, rfl⟩ | ⟨rfl, rfl, rfl, rfl⟩ | ⟨rfl, rfl, rfl, rfl⟩ | ⟨rfl, rfl, rfl, rfl⟩ |
    ⟨rfl, rfl, rfl, rfl⟩
  all_goals exact ⟨rfl, rfl⟩

/-- Settles O45: each is the write class of its mode from a state whose S is already the new one, which no address cycle
reads. -/
theorem shStores : Obligations.ShStores := by
  unfold Obligations.ShStores
  refine ⟨by decide, ?_⟩
  intro s i m r sp ax hi s0 base index before ea value addr w
  obtain ⟨hm, hexec⟩ := exec_storeHigh hi
  obtain ⟨hstore, hbefore⟩ := s0.storeHigh_eq hm r
  have hw : (s0.effectiveAddr m).2 = w := hbefore
  rw [shStore_eq] at hstore
  rw [hstore] at hexec
  refine ⟨s0.storeAt m addr value, hexec, s0.storeAt_cpu m addr value, ?_, ?_, fun ha => s0.takes_storeAt m ha value⟩
  · rw [← hw]
    exact s0.storeAt_keepsAllBut m addr value
  · rw [← hw]
    exact fun hs ha l => State.write_byteAt_self ha value (s0.effectiveAddr_memoryOk m hs)

/-! ### O46: JAM (R262) -/

theorem exec_jam (op : Byte) (s : State) :
    exec (.jam op) s = .next { s with cpu := { s.cpu with pc := s.cpu.pc - 1#16, jammed := true } } := rfl

theorem step_jammed {s : State} (hjammed : s.cpu.jammed = true) : step s = .next s.beginStep.jammedStep :=
  if_pos hjammed

theorem takes_jammedStep (s : State) : TakesIdle 1 s s.jammedStep := (takes_dummyFetch s).of_dev rfl

/-- Settles O46: JAM has no bus cycle after its fetch, and a jammed step is the dummy read at PC. -/
theorem jamLocksUp : Obligations.JamLocksUp := by
  unfold Obligations.JamLocksUp
  refine ⟨by decide, by decide, fun s op => ?_, fun s hjammed => ?_⟩
  · exact ⟨_, exec_jam op s, rfl, .of_mem rfl rfl rfl, rfl⟩
  · exact ⟨_, step_jammed hjammed, rfl, .of_mem rfl rfl rfl, (takes_jammedStep s.beginStep).takes⟩

end Sys2Proof.Machine
end

section
/-! The APU (52_apu.md): the invariant of its channels, the frame sequencer's interrupt and the status register. -/

namespace Sys2Proof.Machine

/-! ### The invariant, channel by channel (R368, R379, R392) -/

/-- A disabled pulse channel has an empty length counter. -/
def Pulse.Ok (p : Pulse) : Prop := p.enabled = false → p.length = 0#8

/-- So has the disabled triangle channel. -/
def Triangle.Ok (t : Triangle) : Prop := t.enabled = false → t.length = 0#8

/-- So has the disabled noise channel, whose shift register is never 0. -/
def Noise.Ok (z : Noise) : Prop := z.lfsr ≠ 0#15 ∧ (z.enabled = false → z.length = 0#8)

/-- The invariant of O50. -/
def Apu.Ok (a : Apu) : Prop := a.pulse1.Ok ∧ a.pulse2.Ok ∧ a.tri.Ok ∧ a.noise.Ok

theorem apuOk_iff (s : State) : s.ApuOk ↔ s.dev.apu.Ok := by
  constructor
  · rintro ⟨hlfsr, hpulse1, hpulse2, htri, hnoise⟩
    exact ⟨hpulse1, hpulse2, htri, hlfsr, hnoise⟩
  · rintro ⟨hpulse1, hpulse2, htri, hlfsr, hnoise⟩
    exact ⟨hlfsr, hpulse1, hpulse2, htri, hnoise⟩

/-! ### Length counters (R379) -/

/-- An empty length counter stays empty. -/
theorem clockLength_zero (halt : Bool) : clockLength halt 0#8 = 0#8 := rfl

theorem Pulse.Ok.clockLength {p : Pulse} (h : p.Ok) : p.clockLength.Ok := fun hoff =>
  (congrArg (Machine.clockLength _) (h hoff)).trans (clockLength_zero _)

theorem Pulse.clockSweep_enabled (p : Pulse) (first : Bool) : (p.clockSweep first).enabled = p.enabled := by
  unfold Pulse.clockSweep
  simp only [apply_ite Pulse.enabled, ite_self]

theorem Pulse.clockSweep_length (p : Pulse) (first : Bool) : (p.clockSweep first).length = p.length := by
  unfold Pulse.clockSweep
  simp only [apply_ite Pulse.length, ite_self]

theorem Pulse.Ok.clockSweep {p : Pulse} (h : p.Ok) (first : Bool) : (p.clockSweep first).Ok := by
  unfold Pulse.Ok
  rwa [p.clockSweep_enabled, p.clockSweep_length]

theorem Pulse.Ok.clockTimer {p : Pulse} (h : p.Ok) : p.clockTimer.Ok := by
  unfold Pulse.clockTimer
  split <;> exact h

theorem Triangle.Ok.clockTimer {t : Triangle} (h : t.Ok) : t.clockTimer.Ok := by
  unfold Triangle.clockTimer
  split <;> exact h

/-! ### The noise register (R392) -/

/-- Only 1 is shifted out to 0, and then the feedback bit comes in: bit 0 is set and the tap bit is not. -/
theorem Noise.shiftLfsr_ne_zero {z : Noise} (h : z.lfsr ≠ 0#15) : z.shiftLfsr ≠ 0#15 := by
  unfold Noise.shiftLfsr
  dsimp only
  intro hzero
  obtain ⟨hshift, hfeedback⟩ := BitVec.or_eq_zero_iff.1 hzero
  have hone : z.lfsr = 1#15 := by bv_omega
  rw [hone] at hfeedback
  cases hmode : z.mode <;> simp [hmode, bitOf] at hfeedback

theorem Noise.Ok.clockTimer {z : Noise} (h : z.Ok) : z.clockTimer.Ok := by
  have ⟨hlfsr, hlength⟩ := h
  unfold Noise.clockTimer
  split
  · exact ⟨Noise.shiftLfsr_ne_zero hlfsr, hlength⟩
  · exact h

/-! ### The frame sequencer (R372 to R375) -/

section Ok
variable {a : Apu} (h : a.Ok)
include h

theorem Apu.Ok.quarterFrame : a.quarterFrame.Ok := h

theorem Apu.Ok.restartSequencer : a.restartSequencer.Ok := h

theorem Apu.Ok.halfFrame : a.halfFrame.Ok := by
  obtain ⟨hpulse1, hpulse2, htri, hlfsr, hnoise⟩ := h
  refine ⟨hpulse1.clockLength.clockSweep true, hpulse2.clockLength.clockSweep false, fun hoff => ?_, hlfsr,
    fun hoff => ?_⟩
  · exact (congrArg (clockLength _) (htri hoff)).trans (clockLength_zero _)
  · exact (congrArg (clockLength _) (hnoise hoff)).trans (clockLength_zero _)

theorem Apu.Ok.clockSequencer (f : FsSteps) : (a.clockSequencer f).Ok := by
  have hcounted : ({ a with seq := { a.seq with cycle := a.seq.cycle + 1 } } : Apu).Ok := h
  unfold Apu.clockSequencer
  dsimp only
  split
  · exact hcounted.quarterFrame
  · split
    · exact hcounted.quarterFrame.halfFrame
    · split
      · split
        · exact hcounted.quarterFrame.halfFrame.restartSequencer
        · exact hcounted
      · split
        · exact hcounted.quarterFrame.halfFrame.restartSequencer
        · exact hcounted

theorem Apu.Ok.clockTimers (even : Bool) : (a.clockTimers even).Ok := by
  obtain ⟨hpulse1, hpulse2, htri, hnoise⟩ := h
  cases even with
  | false => exact ⟨hpulse1, hpulse2, htri.clockTimer, hnoise.clockTimer⟩
  | true => exact ⟨hpulse1.clockTimer, hpulse2.clockTimer, htri.clockTimer, hnoise.clockTimer⟩

/-! ### Register writes (R363 to R370) -/

omit h in
/-- A length counter is loaded only while its channel is enabled. -/
theorem length_reload {enabled : Bool} {length : Byte} (h : enabled = false → length = 0#8) (v : Byte) :
    enabled = false → (if enabled then v else length) = 0#8 := by
  intro hoff
  rw [if_neg (by simp [hoff])]
  exact h hoff

omit h in
theorem Pulse.Ok.writeReg {p : Pulse} (h : p.Ok) (r : Nat) (d : Byte) : (p.writeReg r d).Ok := by
  unfold Pulse.writeReg
  split
  case h_4 => exact length_reload h _
  all_goals exact h

omit h in
theorem Triangle.Ok.writeReg {t : Triangle} (h : t.Ok) (r : Nat) (d : Byte) : (t.writeReg r d).Ok := by
  unfold Triangle.writeReg
  split
  case h_4 => exact length_reload h _
  all_goals exact h

omit h in
theorem Noise.Ok.writeReg {z : Noise} (h : z.Ok) (r : Nat) (d : Byte) : (z.writeReg r d).Ok := by
  unfold Noise.writeReg
  split
  case h_4 => exact ⟨h.1, length_reload h.2 _⟩
  all_goals exact h

theorem Apu.Ok.writeDmc (r : Nat) (d : Byte) : (a.writeDmc r d).Ok := by
  unfold Apu.writeDmc
  split <;> exact h

omit h in
/-- Disabling a channel empties its length counter. -/
theorem length_enable (on : Bool) (n : Byte) : on = false → (if on then n else 0#8) = 0#8 := by
  rintro rfl
  rfl

theorem Apu.Ok.writeEnables (d : Byte) : (a.writeEnables d).Ok :=
  have ⟨_, _, _, hlfsr, _⟩ := h
  ⟨length_enable _ _, length_enable _ _, length_enable _ _, hlfsr, length_enable _ _⟩

theorem Apu.Ok.writeFrameCounter (d : Byte) : (a.writeFrameCounter d).Ok := by
  have hreset : ({ a with seq := ⟨bitOf d 7, bitOf d 6, 0⟩, frameIrq := a.frameIrq && !bitOf d 6 } : Apu).Ok := h
  unfold Apu.writeFrameCounter
  dsimp only
  split
  · exact hreset.quarterFrame.halfFrame
  · exact hreset

theorem Apu.Ok.writeReg (r : Nat) (d : Byte) : (a.writeReg r d).Ok := by
  have ⟨hpulse1, hpulse2, htri, hnoise⟩ := h
  unfold Apu.writeReg
  split
  · exact ⟨hpulse1.writeReg r d, hpulse2, htri, hnoise⟩
  · split
    · exact ⟨hpulse1, hpulse2.writeReg _ d, htri, hnoise⟩
    · split
      · exact ⟨hpulse1, hpulse2, htri.writeReg _ d, hnoise⟩
      · split
        · exact ⟨hpulse1, hpulse2, htri, hnoise.writeReg _ d⟩
        · split
          · exact h.writeDmc _ d
          · split
            · exact h.writeEnables d
            · split
              · exact h.writeFrameCounter d
              · exact h

end Ok

/-! ### Ticks and bus accesses -/

/-- PPU registers are outside the APU. -/
theorem sameOutside_ppuRegRead (e : Env) (i : Nat) (d : Devices) : SameOutside d (ppuRegRead e i d).2 := by
  unfold ppuRegRead
  split
  case h_3 =>
    unfold readPpuData
    dsimp only
    split <;> exact ⟨rfl, rfl, rfl, rfl, rfl, rfl, rfl⟩
  all_goals exact ⟨rfl, rfl, rfl, rfl, rfl, rfl, rfl⟩

theorem sameOutside_ppuRegWrite (e : Env) (i : Nat) (v : Byte) (d : Devices) : SameOutside d (ppuRegWrite e i v d) := by
  unfold ppuRegWrite ppuRegEffect
  split
  case h_6 =>
    unfold writeAddr
    dsimp only
    split <;> exact ⟨rfl, rfl, rfl, rfl, rfl, rfl, rfl⟩
  all_goals exact ⟨rfl, rfl, rfl, rfl, rfl, rfl, rfl⟩

/-- A bus read reaches the APU only at the status register. -/
theorem busRead_apu (e : Env) (a : Word) (d : Devices) :
    (busRead e a d).2.apu = d.apu ∨ (busRead e a d).2.apu = d.apu.afterStatusRead := by
  unfold busRead
  split
  · exact .inl rfl
  · obtain ⟨-, -, -, -, hapu, -, -⟩ := sameOutside_ppuRegRead e _ d
    exact .inl hapu
  · unfold ioRead
    split
    case h_1 => exact .inr rfl
    all_goals exact .inl rfl
  · exact .inl rfl

/-- A tick is three dots, which touch the PPU, the mapper and the NMI request, and the APU's cycle. -/
theorem tick_eq_apuTick (e : Env) (d : Devices) :
    ∃ p, SameOutside { d with cycles := d.cycles + 1 } p ∧ tick e d = apuTick e p :=
  ⟨_, ((sameOutside_ppuDot e _).trans (sameOutside_ppuDot e _)).trans (sameOutside_ppuDot e _), rfl⟩

section Ok
variable {d : Devices} (h : d.apu.Ok)
include h

theorem busRead_keeps_apuOk (e : Env) (a : Word) : (busRead e a d).2.apu.Ok := by
  rcases busRead_apu e a d with heq | heq <;> rw [heq] <;> exact h

/-- The fetched byte goes to the DMC. -/
theorem dmcRefill_keeps_apuOk (e : Env) : (dmcRefill e d).apu.Ok := by
  unfold dmcRefill
  split
  · exact busRead_keeps_apuOk h e _
  · exact h

theorem apuTick_keeps_apuOk (e : Env) : (apuTick e d).apu.Ok := by
  have hclocked := (h.clockSequencer e.params.fsSteps).clockTimers (d.cycles % 2 == 0)
  unfold apuTick
  exact dmcRefill_keeps_apuOk (d := { d with apu := Apu.clockTimers _ _ }) hclocked e

theorem tick_keeps_apuOk (e : Env) : (tick e d).apu.Ok := by
  obtain ⟨p, ⟨-, -, -, -, hapu, -, -⟩, htick⟩ := tick_eq_apuTick e d
  rw [htick]
  exact apuTick_keeps_apuOk (by rwa [hapu]) e

theorem busWriteDevices_keeps_apuOk (e : Env) (a : Word) (v : Byte) : (busWriteDevices e a v d).apu.Ok := by
  unfold busWriteDevices
  split
  · exact h
  · obtain ⟨-, -, -, -, hapu, -, -⟩ := sameOutside_ppuRegWrite e _ v d
    rwa [hapu]
  · split
    · exact h
    · split
      · exact dmcRefill_keeps_apuOk (h.writeReg _ v) e
      · split
        · exact h
        · exact h.writeReg _ v
  · exact h

end Ok

theorem Act.keeps_apuOk {s t : State} (h : Act s t) (hs : s.ApuOk) : t.ApuOk := by
  have hdev := (apuOk_iff s).1 hs
  rw [apuOk_iff]
  cases h with
  | tick => exact tick_keeps_apuOk hdev s.env
  | busRead a => exact busRead_keeps_apuOk hdev s.env a
  | busWrite a v => exact busWriteDevices_keeps_apuOk hdev s.env a v
  | wires latch last stall nmi => exact hdev
  | cpu c poll hc => exact hdev

/-- Settles O50: a length counter is loaded only while its channel is enabled, and a non-zero shift register never
shifts to 0. -/
theorem stepKeepsApu : Obligations.StepKeepsApu := by
  unfold Obligations.StepKeepsApu
  exact fun _ _ => step_keeps fun _ _ => Act.keeps_apuOk

/-! ### O56: the frame IRQ (R372, R373) -/

/-- In 5-step mode no branch of the sequencer writes the IRQ. -/
theorem clockSequencer_frameIrq_mode5 (f : FsSteps) {a : Apu} (h : a.seq.mode5 = true) :
    (a.clockSequencer f).frameIrq = a.frameIrq := by
  unfold Apu.clockSequencer
  dsimp only
  rw [h]
  split
  · rfl
  · split
    · rfl
    · rw [if_pos rfl]
      split <;> rfl

/-- Cycle 29831 is step 4 and none of the others. -/
theorem clockSequencer_step4 {a : Apu} (hmode : a.seq.mode5 = false) (hcycle : a.seq.cycle = 29830) :
    (a.clockSequencer Config.params.fsSteps).seq.cycle = 0 ∧
      (a.clockSequencer Config.params.fsSteps).frameIrq = (a.frameIrq || !a.seq.irqInhibit) := by
  unfold Apu.clockSequencer
  dsimp only
  have hsteps : Config.params.fsSteps = ⟨7458, 14915, 22372, 29831, 37282⟩ := rfl
  rw [hmode, hcycle, hsteps, if_neg (by simp), if_neg (by simp), if_neg (by simp), if_pos (by simp)]
  exact ⟨rfl, rfl⟩

/-- Settles O56: the IRQ is written by step 4 only, which 5-step mode does not have. -/
theorem frameIrq : Obligations.FrameIrq := by
  unfold Obligations.FrameIrq
  exact ⟨fun _ => clockSequencer_step4, fun f _ => clockSequencer_frameIrq_mode5 f⟩

/-! ### O57: the status register (R369) -/

/-- Bit `j` of a flag in place `k`. -/
theorem bitOf_bitAt {k j : Nat} (b : Bool) (hk : k < 8) (hj : j < 8) : bitOf (bitAt b k) j = (b && decide (j = k)) := by
  have hbit : ∀ b : Bool, ∀ k j : Fin 8, bitOf (bitAt b k.val) j.val = (b && decide (j.val = k.val)) := by decide
  exact hbit b ⟨k, hk⟩ ⟨j, hj⟩

theorem bitOf_or (v w : Byte) (k : Nat) : bitOf (v ||| w) k = (bitOf v k || bitOf w k) := BitVec.getLsbD_or

/-- Each flag of the status byte has a place of its own. -/
theorem bitOf_status (a : Apu) :
    bitOf a.status 7 = a.dmcIrq ∧ bitOf a.status 6 = a.frameIrq ∧ bitOf a.status 5 = false ∧
      bitOf a.status 4 = (a.dmc.bytesLeft != 0#12) ∧ bitOf a.status 3 = (a.noise.length != 0#8) ∧
      bitOf a.status 2 = (a.tri.length != 0#8) ∧ bitOf a.status 1 = (a.pulse2.length != 0#8) ∧
      bitOf a.status 0 = (a.pulse1.length != 0#8) := by
  refine ⟨?_, ?_, ?_, ?_, ?_, ?_, ?_, ?_⟩
  all_goals simp (disch := decide) [Apu.status, bitOf_or, bitOf_bitAt]

theorem busTarget_apuStatus : busTarget 0x4015#16 = .io 0x15 := rfl

theorem busRead_apuStatus (e : Env) (d : Devices) :
    busRead e 0x4015#16 d = (d.apu.status, { d with apu := d.apu.afterStatusRead }) := by
  unfold busRead
  rw [busTarget_apuStatus]
  rfl

theorem State.peek_apuStatus (s : State) : s.peek 0x4015#16 = s.dev.apu.status := by
  unfold State.peek
  rw [busTarget_apuStatus]
  rfl

/-- Settles O57: the read is the status byte and the acknowledge, and `Peek` is the status byte. -/
theorem apuStatusRead : Obligations.ApuStatusRead := by
  unfold Obligations.ApuStatusRead
  intro s
  obtain ⟨h7, h6, h5, h4, h3, h2, h1, h0⟩ := bitOf_status s.dev.apu
  rw [busRead_apuStatus]
  exact ⟨h7, h6, h5, h4, h3, h2, h1, h0, rfl, s.peek_apuStatus⟩

end Sys2Proof.Machine
end

section
/-! What ticks and reads leave alone while rendering is off: OAMADDR, PPUCTRL, the buttons, and with bit 7 of PPUCTRL
clear the NMI request (51_ppu.md R302, R305, R343; 54_joypad.md R481). -/

namespace Sys2Proof.Machine

/-- Rendering is off, and since `d0` OAMADDR, PPUCTRL and the buttons have stayed; with bit 7 of PPUCTRL clear no NMI
has been requested. -/
def Devices.RestingSince (d0 d : Devices) : Prop :=
  d.ppu.rendering = false ∧ d.ppu.oamAddr = d0.ppu.oamAddr ∧ d.ppu.ctrl = d0.ppu.ctrl ∧
    (bitOf d0.ppu.ctrl 7 = false → d.nmiRequest = true → d0.nmiRequest = true) ∧
    d.joy1.buttons = d0.joy1.buttons ∧ d.joy2.buttons = d0.joy2.buttons

theorem Devices.RestingSince.refl {d : Devices} (h : d.ppu.rendering = false) : d.RestingSince d :=
  ⟨h, rfl, rfl, fun _ => id, rfl, rfl⟩

section Resting
variable {d0 d : Devices} (h : d0.RestingSince d)
include h

theorem resting_setApu (a : Apu) : d0.RestingSince { d with apu := a } := h

/-- With bit 7 of PPUCTRL clear the level is low, so it has no rising edge. -/
theorem resting_updateNmi : d0.RestingSince (updateNmi d) := by
  obtain ⟨hoff, hoam, hctrl, hnmi, hjoy1, hjoy2⟩ := h
  refine ⟨hoff, hoam, hctrl, fun hlow hrequest => hnmi hlow ?_, hjoy1, hjoy2⟩
  simpa [updateNmi, hctrl, hlow] using hrequest

theorem resting_vblankDot (l : Int) (dot : Nat) : d0.RestingSince (vblankDot l dot d) := by
  unfold vblankDot
  split
  · split
    · exact h
    · split <;> exact h
  · exact h

theorem resting_renderDot (e : Env) (l : Int) (dot : Nat) : d0.RestingSince (renderDot e l dot d) := by
  have ⟨hoff, _⟩ := h
  unfold renderDot
  rw [hoff, Bool.and_false, if_neg Bool.false_ne_true]
  exact h

theorem resting_outputDot (e : Env) (l : Int) (dot : Nat) : d0.RestingSince (outputDot e l dot d) := by
  unfold outputDot
  split <;> exact h

theorem resting_ppuDot (e : Env) : d0.RestingSince (ppuDot e d) := by
  have haged : d0.RestingSince (ageDot e d) := h
  exact resting_updateNmi (resting_outputDot (resting_renderDot (resting_vblankDot haged _ _) e _ _) e _ _)

/-- A PPUSTATUS read may drop the request, not raise it. -/
theorem resting_readStatus : d0.RestingSince (readStatus d).2 := by
  obtain ⟨hoff, hoam, hctrl, hnmi, hjoy1, hjoy2⟩ := h
  exact resting_updateNmi
    ⟨hoff, hoam, hctrl, fun hlow hrequest => hnmi hlow (Bool.and_eq_true_iff.1 hrequest).1, hjoy1, hjoy2⟩

theorem resting_busRead (e : Env) (a : Word) : d0.RestingSince (busRead e a d).2 := by
  unfold busRead
  split
  · exact h
  · unfold ppuRegRead
    split
    case h_1 => exact resting_readStatus h
    case h_3 =>
      unfold readPpuData
      dsimp only
      split <;> exact h
    all_goals exact h
  · unfold ioRead
    split <;> exact h
  · exact h

theorem resting_dmcRefill (e : Env) : d0.RestingSince (dmcRefill e d) := by
  unfold dmcRefill
  split
  · exact resting_busRead h e _
  · exact h

theorem resting_tick (e : Env) : d0.RestingSince (tick e d) := by
  have hcycle : d0.RestingSince { d with cycles := d.cycles + 1 } := h
  have hdots := resting_ppuDot (resting_ppuDot (resting_ppuDot hcycle e) e) e
  exact resting_dmcRefill (resting_setApu hdots _) e

omit h in
theorem resting_serveStall (e : Env) (dummy : Word) (n : Nat) {d : Devices} (h : d0.RestingSince d) :
    d0.RestingSince (serveStall e dummy n d) := by
  induction n generalizing d with
  | zero => exact h
  | succ n ih =>
    unfold serveStall
    split
    · exact h
    · have hdown : d0.RestingSince { d with stall := d.stall - 1 } := h
      exact ih (resting_busRead (resting_tick hdown e) e dummy)

theorem resting_cpuRead (e : Env) (a : Word) : d0.RestingSince (cpuRead e a d).2 :=
  resting_busRead (resting_tick (resting_serveStall e _ _ h) e) e a

end Resting

end Sys2Proof.Machine
end

section
/-! The stall loop of a read (50_bus.md R274, R278) and the DMC's fetches that lengthen it (R279; 52_apu.md R396 to
R399). -/

namespace Sys2Proof.Machine

/-! ### O16: one DMC fetch -/

/-- What a delivery gives every time: a full buffer, and the timer untouched. -/
theorem Dmc.deliver_frame (m : Dmc) (v : Byte) :
    (m.deliver v).1.buffer = v ∧ (m.deliver v).1.bufferFull = true ∧ (m.deliver v).1.timer = m.timer ∧
      (m.deliver v).1.bitsLeft = m.bitsLeft := by
  unfold Dmc.deliver
  dsimp only
  split
  · split <;> exact ⟨rfl, rfl, rfl, rfl⟩
  · exact ⟨rfl, rfl, rfl, rfl⟩

theorem bytesLeft_sub_one_eq_zero_iff (n : BitVec 12) : n - 1#12 = 0#12 ↔ n = 1#12 := by
  constructor
  · intro h
    bv_omega
  · rintro rfl
    rfl

/-- Before the last byte the sample goes on: 0xFFFF is followed by 0x8000. -/
theorem Dmc.deliver_more {m : Dmc} (h : m.bytesLeft ≠ 1#12) (v : Byte) :
    (m.deliver v).1.bytesLeft = m.bytesLeft - 1#12 ∧
      (m.deliver v).1.curAddr = if m.curAddr = 0xFFFF#16 then 0x8000#16 else m.curAddr + 1#16 := by
  unfold Dmc.deliver
  dsimp only
  rw [if_neg (mt (bytesLeft_sub_one_eq_zero_iff _).1 h)]
  exact ⟨rfl, rfl⟩

/-- At the last byte a looping sample starts again from its registers. -/
theorem Dmc.deliver_last_loop {m : Dmc} (h : m.bytesLeft = 1#12) (hloop : m.loop = true) (v : Byte) :
    (m.deliver v).1.bytesLeft = (m.lenReg.setWidth 12 <<< 4) ||| 1#12 ∧
      (m.deliver v).1.curAddr = 0xC000#16 ||| (m.addrReg.setWidth 16 <<< 6) := by
  unfold Dmc.deliver
  dsimp only
  rw [if_pos ((bytesLeft_sub_one_eq_zero_iff _).2 h), if_pos hloop]
  exact ⟨rfl, rfl⟩

/-- At the last byte any other sample ends, with the IRQ if it is enabled. -/
theorem Dmc.deliver_last_stop {m : Dmc} (h : m.bytesLeft = 1#12) (hloop : m.loop = false) (v : Byte) :
    (m.deliver v).1.bytesLeft = 0#12 ∧ (m.deliver v).2 = m.irqEn := by
  have hzero := (bytesLeft_sub_one_eq_zero_iff m.bytesLeft).2 h
  unfold Dmc.deliver
  dsimp only
  rw [if_pos hzero, hloop]
  exact ⟨hzero, rfl⟩

theorem Dmc.wantsByte_iff (m : Dmc) : m.wantsByte = true ↔ m.bufferFull = false ∧ m.bytesLeft ≠ 0#12 := by
  simp [Dmc.wantsByte]

theorem dmcRefill_of_not_wantsByte (e : Env) {d : Devices} (h : ¬d.apu.dmc.wantsByte = true) : dmcRefill e d = d :=
  if_neg h

/-- The byte comes through the bus decode, which leaves the counters and the DMC alone. -/
theorem dmcRefill_of_wantsByte (e : Env) {d : Devices} (h : d.apu.dmc.wantsByte = true) :
    (dmcRefill e d).stall = d.stall + 4 ∧
      (dmcRefill e d).apu.dmc = (d.apu.dmc.deliver (busRead e d.apu.dmc.curAddr d).1).1 ∧
      ((d.apu.dmc.deliver (busRead e d.apu.dmc.curAddr d).1).2 = true → (dmcRefill e d).apu.dmcIrq = true) := by
  obtain ⟨-, hstall, hdmc⟩ := busRead_counters e d.apu.dmc.curAddr d
  unfold dmcRefill
  rw [if_pos h]
  dsimp only
  rw [hstall, hdmc]
  refine ⟨rfl, rfl, fun hirq => ?_⟩
  rw [hirq, Bool.or_true]

/-- Settles O16: a fetch is a bus read of the current address and the delivery of its byte. -/
theorem dmcFetch : Obligations.DmcFetch := by
  unfold Obligations.DmcFetch
  intro e d m d'
  refine ⟨fun hnone => dmcRefill_of_not_wantsByte e ?_, fun hempty hleft => ?_⟩
  · rw [Dmc.wantsByte_iff]
    rintro ⟨hempty, hleft⟩
    rcases hnone with hfull | hdone
    · exact Bool.noConfusion (hempty.symm.trans hfull)
    · exact hleft hdone
  · obtain ⟨hstall, hdmc, hirq⟩ := dmcRefill_of_wantsByte e ((Dmc.wantsByte_iff m).2 ⟨hempty, hleft⟩)
    obtain ⟨hbuffer, hfull, -, -⟩ := m.deliver_frame (busRead e m.curAddr d).1
    have hd' : d'.apu.dmc = (m.deliver (busRead e m.curAddr d).1).1 := hdmc
    rw [hd']
    refine ⟨hstall, hbuffer, hfull, dmcRefill_cycles e d, fun hmore => m.deliver_more hmore _,
      fun hlast hloop => m.deliver_last_loop hlast hloop _, fun hlast hstop => ?_⟩
    obtain ⟨hdone, hraise⟩ := m.deliver_last_stop hlast hstop (busRead e m.curAddr d).1
    exact ⟨hdone, fun hen => hirq (hraise.trans hen)⟩

/-! ### O14: the stall loop

A fetch adds four cycles, so the loop ends because fetches are rare: the buffer must run empty between two of them, and
it does so at most once in eight periods of the timer. `stallWork` counts two for each stall cycle and what the next
two fetches may add; every stall cycle takes at least one from it. -/

/-- What the next emptying of the buffer counts for: 8 when the next timer clock brings it, one less for each clock
before. -/
def Dmc.emptyingNear (m : Dmc) : Nat := if m.bitsLeft = 1#4 then 8 - m.timer.toNat else 0

/-- What the fetches to come count for: 8 for an empty buffer, and the next emptying. -/
def Dmc.fetchesNear (m : Dmc) : Nat := m.emptyingNear + if m.bufferFull then 0 else 8

/-- Two for each stall cycle, and the fetches to come. -/
def Devices.stallWork (d : Devices) : Nat := 2 * d.stall + d.apu.dmc.fetchesNear

theorem Dmc.emptyingNear_le (m : Dmc) : m.emptyingNear ≤ 8 := by
  unfold Dmc.emptyingNear
  split <;> omega

theorem Dmc.fetchesNear_le (m : Dmc) : m.fetchesNear ≤ 16 := by
  have h := m.emptyingNear_le
  unfold Dmc.fetchesNear
  split <;> omega

/-- Every rate of the table is longer than eight cycles (R396). -/
theorem dmcRate_long : ∀ r : BitVec 4, 8 ≤ (BitVec.ofNat 9 (dmcRateTable.getD r.toNat 0 - 1)).toNat := by decide

/-- With eight cycles to the next clock no emptying is near. -/
theorem Dmc.emptyingNear_eq_zero {m : Dmc} (h : 8 ≤ m.timer.toNat) : m.emptyingNear = 0 := by
  unfold Dmc.emptyingNear
  split <;> omega

theorem Dmc.outputClock_timer (m : Dmc) : m.outputClock.timer = m.timer := by
  unfold Dmc.outputClock
  simp only [apply_ite Dmc.timer, ite_self]

/-- Only the clock that ends a byte empties the buffer (R397). -/
theorem Dmc.outputClock_bufferFull {m : Dmc} (h : m.bitsLeft ≠ 1#4) : m.outputClock.bufferFull = m.bufferFull := by
  have hmore : m.bitsLeft - 1#4 ≠ 0#4 := by bv_omega
  unfold Dmc.outputClock
  dsimp only
  rw [if_neg hmore]

/-- A timer clock brings the fetches nearer by one cycle at most. -/
theorem Dmc.fetchesNear_clockTimer (m : Dmc) : m.clockTimer.fetchesNear ≤ m.fetchesNear + 1 := by
  unfold Dmc.clockTimer
  split
  case isTrue hzero =>
    have hlong := dmcRate_long m.rateIdx
    generalize BitVec.ofNat 9 (dmcRateTable.getD m.rateIdx.toNat 0 - 1) = period at hlong ⊢
    have hfar : ({ m with timer := period } : Dmc).outputClock.emptyingNear = 0 :=
      Dmc.emptyingNear_eq_zero (by rw [Dmc.outputClock_timer]; exact hlong)
    unfold Dmc.fetchesNear
    rw [hfar]
    by_cases hlast : m.bitsLeft = 1#4
    · have hnear : m.emptyingNear = 8 := by simp [Dmc.emptyingNear, hlast, hzero]
      rw [hnear]
      split <;> omega
    · rw [Dmc.outputClock_bufferFull (m := { m with timer := period }) hlast]
      dsimp only
      omega
  case isFalse hpos =>
    have htimer : (m.timer - 1#9).toNat = m.timer.toNat - 1 := by bv_omega
    simp only [Dmc.fetchesNear, Dmc.emptyingNear, htimer]
    split <;> omega

/-- A fetch pays for the stall it asks for. -/
theorem stallWork_dmcRefill (e : Env) (d : Devices) : (dmcRefill e d).stallWork = d.stallWork := by
  by_cases hwants : d.apu.dmc.wantsByte = true
  · obtain ⟨hstall, hdmc, -⟩ := dmcRefill_of_wantsByte e hwants
    obtain ⟨-, hfull, htimer, hbits⟩ := d.apu.dmc.deliver_frame (busRead e d.apu.dmc.curAddr d).1
    obtain ⟨hempty, -⟩ := (Dmc.wantsByte_iff _).1 hwants
    simp only [Devices.stallWork, Dmc.fetchesNear, Dmc.emptyingNear, hstall, hdmc, hfull, htimer, hbits, hempty]
    simp only [if_true, Bool.false_eq_true, if_false]
    omega
  · rw [dmcRefill_of_not_wantsByte e hwants]

theorem stallWork_apuTick (e : Env) (d : Devices) : (apuTick e d).stallWork ≤ d.stallWork + 1 := by
  let a := (d.apu.clockSequencer e.params.fsSteps).clockTimers (d.cycles % 2 == 0)
  have hdmc : a.dmc = d.apu.dmc.clockTimer := congrArg Dmc.clockTimer (clockSequencer_dmc _ _)
  calc (apuTick e d).stallWork = (dmcRefill e { d with apu := a }).stallWork := by
        unfold apuTick Devices.stallWork
        rfl
    _ = 2 * d.stall + a.dmc.fetchesNear := stallWork_dmcRefill e _
    _ = 2 * d.stall + d.apu.dmc.clockTimer.fetchesNear := congrArg (2 * d.stall + Dmc.fetchesNear ·) hdmc
    _ ≤ d.stallWork + 1 := Nat.add_le_add_left d.apu.dmc.fetchesNear_clockTimer _

theorem stallWork_tick (e : Env) (d : Devices) : (tick e d).stallWork ≤ d.stallWork + 1 := by
  obtain ⟨p, ⟨-, -, -, hstall, hapu, -, -⟩, htick⟩ := tick_eq_apuTick e d
  have hwork : p.stallWork = d.stallWork := by
    unfold Devices.stallWork
    rw [hstall, hapu]
  rw [htick, ← hwork]
  exact stallWork_apuTick e p

theorem stallWork_busRead (e : Env) (a : Word) (d : Devices) : (busRead e a d).2.stallWork = d.stallWork := by
  obtain ⟨-, hstall, hdmc⟩ := busRead_counters e a d
  unfold Devices.stallWork
  rw [hstall, hdmc]

/-- A stall cycle gives two and takes back one at most. -/
theorem stallWork_stallCycle (e : Env) (dummy : Word) {d : Devices} (h : d.stall ≠ 0) :
    (stallCycle e dummy d).stallWork < d.stallWork := by
  have htick := stallWork_tick e { d with stall := d.stall - 1 }
  have hdown : ({ d with stall := d.stall - 1 } : Devices).stallWork + 2 = d.stallWork := by
    unfold Devices.stallWork
    dsimp only
    omega
  unfold stallCycle
  rw [stallWork_busRead]
  omega

/-- The loop serves the stall if its fuel is at least the work. -/
theorem serveStall_stall (e : Env) (dummy : Word) (n : Nat) {d : Devices} (h : d.stallWork ≤ n) :
    (serveStall e dummy n d).stall = 0 := by
  induction n generalizing d with
  | zero =>
    unfold Devices.stallWork at h
    exact (by omega : d.stall = 0)
  | succ n ih =>
    unfold serveStall
    split
    · assumption
    · have hless := stallWork_stallCycle e dummy ‹d.stall ≠ 0›
      exact ih (by omega)

theorem stallWork_le_stallFuel (d : Devices) : d.stallWork ≤ stallFuel d := by
  have hnear := d.apu.dmc.fetchesNear_le
  unfold Devices.stallWork stallFuel
  omega

/-- Settles O14: the fuel is at least the work, whatever the state of the DMC. -/
theorem stallIsServed : Obligations.StallIsServed := by
  unfold Obligations.StallIsServed
  exact fun e a d => serveStall_stall e a _ (stallWork_le_stallFuel d)

/-! ### O15: the stall of a read with the DMC at its end -/

/-- With no DMC byte left each stall cycle is one cycle and asks for no other. -/
theorem serveStall_no_bytes (e : Env) (dummy : Word) (n : Nat) {d : Devices} (hbytes : d.apu.dmc.bytesLeft = 0#12)
    (hn : d.stall ≤ n) :
    (serveStall e dummy n d).cycles = d.cycles + d.stall ∧ (serveStall e dummy n d).stall = 0 ∧
      (serveStall e dummy n d).apu.dmc.bytesLeft = 0#12 := by
  induction n generalizing d with
  | zero =>
    have hzero : d.stall = 0 := by omega
    exact ⟨by rw [hzero]; rfl, hzero, hbytes⟩
  | succ n ih =>
    unfold serveStall
    split
    case isTrue hzero => exact ⟨by rw [hzero]; rfl, hzero, hbytes⟩
    case isFalse hpos =>
      obtain ⟨tcycles, tstall, tbytes⟩ := tick_idle e { d with stall := d.stall - 1 } hbytes
      obtain ⟨rcycles, rstall, rdmc⟩ := busRead_counters e dummy (tick e { d with stall := d.stall - 1 })
      have hcycles : (stallCycle e dummy d).cycles = d.cycles + 1 := rcycles.trans tcycles
      have hstall : (stallCycle e dummy d).stall = d.stall - 1 := rstall.trans tstall
      have hleft : (stallCycle e dummy d).apu.dmc.bytesLeft = 0#12 := (congrArg Dmc.bytesLeft rdmc).trans tbytes
      obtain ⟨scycles, sstall, sbytes⟩ := ih hleft (by omega)
      exact ⟨by omega, sstall, sbytes⟩

/-- Settles O15: the pending stall cycles, and the read's own. -/
theorem stalledReadCycles : Obligations.StalledReadCycles := by
  unfold Obligations.StalledReadCycles
  intro a s hbytes
  obtain ⟨scycles, sstall, sbytes⟩ := serveStall_no_bytes s.env (stallDummy s.env a s.dev) (stallFuel s.dev) hbytes
    (by unfold stallFuel; omega)
  obtain ⟨tcycles, tstall, -⟩ := tick_idle s.env _ sbytes
  obtain ⟨rcycles, rstall, -⟩ := busRead_counters s.env a
    (tick s.env (serveStall s.env (stallDummy s.env a s.dev) (stallFuel s.dev) s.dev))
  exact ⟨(rcycles.trans tcycles).trans (by omega), (rstall.trans tstall).trans sstall⟩

end Sys2Proof.Machine
end

section
/-! OAM DMA (50_bus.md R280; 51_ppu.md R306): how long it takes, and what it copies while rendering is off. -/

namespace Sys2Proof.Machine

/-! ### O17: the cycles -/

/-- Settles O17: the write's own cycle, and the DMA's. -/
theorem oamDmaCycles : Obligations.OamDmaCycles := by
  unfold Obligations.OamDmaCycles
  intro v s hidle
  rw [Nat.add_assoc]
  exact (takes_write_oamDma v s).takes hidle

/-! ### One byte -/

/-- Rendering is off and OAMADDR is `k`. -/
def Devices.OamAt (k : Byte) (d : Devices) : Prop := d.ppu.rendering = false ∧ d.ppu.oamAddr = k

/-- OAMADDR stays where it is through ticks and reads. -/
theorem Devices.OamAt.of_resting {k : Byte} {d d' : Devices} (h : d.OamAt k) (hrest : d.RestingSince d') :
    d'.OamAt k := by
  obtain ⟨-, haddr⟩ := h
  obtain ⟨hoff, hsame, -⟩ := hrest
  exact ⟨hoff, hsame.trans haddr⟩

/-- A write to OAMDATA moves OAMADDR on by one (R306). -/
theorem oamAt_write_oamData {k : Byte} {d : Devices} (h : d.OamAt k) (e : Env) (v : Byte) :
    (busWriteDevices e 0x2004#16 v d).OamAt (k + 1#8) := by
  obtain ⟨hoff, rfl⟩ := h
  have htarget : busTarget 0x2004#16 = .ppu 4 := rfl
  unfold busWriteDevices
  rw [htarget]
  exact ⟨hoff, rfl⟩

/-- Byte `j` of page `v`. -/
def dmaSource (v : Byte) (j : Nat) : Word := (v.setWidth 16 <<< 8) ||| BitVec.ofNat 16 j

theorem toNat_dmaSource (v : Byte) {j : Nat} (hj : j < 256) : (dmaSource v j).toNat = v.toNat * 256 + j := by
  have hv := v.isLt
  have hpage : ((v.setWidth 16) <<< 8).toNat = v.toNat <<< 8 := by
    rw [BitVec.toNat_shiftLeft, BitVec.toNat_setWidth, Nat.shiftLeft_eq]
    omega
  rw [dmaSource, BitVec.toNat_or, hpage, BitVec.toNat_ofNat, Nat.mod_eq_of_lt (by omega),
    ← Nat.shiftLeft_add_eq_or_of_lt hj, Nat.shiftLeft_eq]

/-- The first 0x20 pages are the internal RAM and its mirrors (R62). -/
theorem busTarget_dmaSource {v : Byte} (hv : v.toNat < 0x20) {j : Nat} (hj : j < 256) :
    busTarget (dmaSource v j) = .ram ((v.toNat * 256 + j) % 0x800) := by
  have haddr := toNat_dmaSource v hj
  rw [busTarget_below_2000 (by omega), haddr]

theorem cpuRead_value_ram {a : Word} {i : Nat} (h : busTarget a = .ram i) (e : Env) (d : Devices) :
    (cpuRead e a d).1 = e.mem.ram.read i := by
  unfold cpuRead
  dsimp only
  rw [busRead_ram h]

theorem State.busWritePlain_mem (a : Word) (v : Byte) (s : State) :
    (s.busWritePlain a v).mem = s.mem.storeAt (busStoreLoc s.env a s.dev) v := rfl

theorem State.oamAt_latchData {k : Byte} {s : State} (h : s.dev.OamAt k) (v : Byte) : (s.latchData v).dev.OamAt k := h

theorem State.oamAt_busWritePlain_oamData {k : Byte} {s : State} (h : s.dev.OamAt k) (v : Byte) :
    (s.busWritePlain 0x2004#16 v).dev.OamAt (k + 1#8) :=
  oamAt_write_oamData h s.env v

/-- One byte of the DMA from RAM: a store at OAMADDR, which moves on by one. -/
theorem State.dmaByte_ram {k : Byte} {s : State} (hk : s.dev.OamAt k) {a : Word} {i : Nat} (ha : busTarget a = .ram i) :
    (s.dmaByte a).mem = s.mem.store ⟨.oam, k.toNat⟩ (s.ramByte i) ∧ (s.dmaByte a).dev.OamAt (k + 1#8) := by
  have hticked := hk.of_resting (resting_tick (resting_cpuRead (.refl hk.1) s.env a) s.env)
  unfold State.dmaByte
  constructor
  · rw [State.latchData_mem, State.busWritePlain_mem, busStoreLoc_oamData]
    show s.mem.store ⟨.oam, (Machine.tick s.env (cpuRead s.env a s.dev).2).ppu.oamAddr.toNat⟩ _ = _
    rw [hticked.2, cpuRead_value_ram ha]
    rfl
  · refine State.oamAt_latchData ?_ _
    refine State.oamAt_busWritePlain_oamData ?_ _
    exact hticked

/-! ### All bytes -/

/-- The OAM index of byte `i` from OAMADDR `k` on. -/
def oamIndex (k : Byte) (i : Nat) : Location := ⟨.oam, (k.toNat + i) % 256⟩

theorem oamIndex_zero (k : Byte) : oamIndex k 0 = ⟨.oam, k.toNat⟩ :=
  congrArg (Location.mk .oam) (Nat.mod_eq_of_lt k.isLt)

theorem oamIndex_add_one (k : Byte) (i : Nat) : oamIndex (k + 1#8) i = oamIndex k (i + 1) := by
  refine congrArg (Location.mk .oam) ?_
  rw [BitVec.toNat_add]
  simp only [BitVec.toNat_ofNat]
  omega

/-- 256 indexes in a row are different. -/
theorem oamIndex_inj {k : Byte} {i j : Nat} (hi : i < 256) (hj : j < 256) (h : oamIndex k i = oamIndex k j) :
    i = j := by
  have hindex : (k.toNat + i) % 256 = (k.toNat + j) % 256 := congrArg Location.index h
  have hk := k.isLt
  omega

/-- The last `n` bytes of a RAM page go to the `n` OAM bytes from OAMADDR on, and nothing else changes. -/
theorem State.dmaBytes_ram {v : Byte} (hv : v.toNat < 0x20) {n : Nat} (hn : n ≤ 256) {k : Byte} {s : State}
    (hs : s.mem.wf = true) (hk : s.dev.OamAt k) :
    (∀ i, i < n → (s.dmaBytes v n).byteAt (oamIndex k i) =
        (oamIndex k i).kept (s.ramByte ((v.toNat * 256 + (256 - n + i)) % 0x800))) ∧
      ∀ l, (∀ i, i < n → l ≠ oamIndex k i) → (s.dmaBytes v n).byteAt l = s.byteAt l := by
  induction n generalizing k s with
  | zero => exact ⟨fun i hi => absurd hi (Nat.not_lt_zero i), fun l _ => rfl⟩
  | succ n ih =>
    have hsource := busTarget_dmaSource hv (by omega : 255 - n < 256)
    obtain ⟨hmem, hnext⟩ := State.dmaByte_ram hk hsource
    rw [← oamIndex_zero] at hmem
    have hself : (s.dmaByte (dmaSource v (255 - n))).byteAt (oamIndex k 0) =
        (oamIndex k 0).kept (s.ramByte ((v.toNat * 256 + (255 - n)) % 0x800)) := by
      unfold State.byteAt
      rw [hmem]
      exact Memories.byteAt_store_self hs _ _
    have hother : ∀ l, l ≠ oamIndex k 0 → (s.dmaByte (dmaSource v (255 - n))).byteAt l = s.byteAt l := by
      intro l hl
      unfold State.byteAt
      rw [hmem]
      exact Memories.byteAt_store_other s.mem hl _
    have hwf : (s.dmaByte (dmaSource v (255 - n))).mem.wf = true := by
      rw [hmem]
      exact Memories.wf_store hs _ _
    obtain ⟨hcopied, hkept⟩ := ih (by omega) hwf hnext
    simp only [oamIndex_add_one] at hcopied hkept
    refine ⟨fun i hi => ?_, fun l hl => ?_⟩
    · cases i with
      | zero =>
        refine (hkept _ fun i hi heq => ?_).trans (hself.trans ?_)
        · exact absurd (oamIndex_inj (by omega) (by omega) heq) (Nat.succ_ne_zero i).symm
        · rw [show 256 - (n + 1) + 0 = 255 - n by omega]
      | succ i =>
        have hram : (s.dmaByte (dmaSource v (255 - n))).ramByte = s.ramByte :=
          funext fun j => hother ⟨.ram, j⟩ (fun heq => MemKind.noConfusion (congrArg Location.kind heq))
        refine (hcopied i (by omega)).trans ?_
        rw [hram, show 256 - n + i = 256 - (n + 1) + (i + 1) by omega]
    · exact (hkept l fun i hi => hl (i + 1) (by omega)).trans (hother l (hl 0 (by omega)))

/-! ### O18 -/

/-- The halt and alignment cycles touch no memory and no register of the PPU. -/
theorem State.oamDma_eq (v : Byte) {k : Byte} {s : State} (hk : s.dev.OamAt k) :
    ∃ u : State, s.oamDma v = u.dmaBytes v 256 ∧ u.mem = s.mem ∧ u.dev.OamAt k := by
  have htick : s.tick.dev.OamAt k := hk.of_resting (resting_tick (.refl hk.1) s.env)
  unfold State.oamDma
  split
  · exact ⟨_, rfl, rfl, htick.of_resting (resting_tick (.refl htick.1) s.tick.env)⟩
  · exact ⟨_, rfl, rfl, htick⟩

/-- Settles O18: each of the 256 stores goes one OAM byte further, and no cycle between them moves OAMADDR. -/
theorem oamDmaCopiesPage : Obligations.OamDmaCopiesPage := by
  unfold Obligations.OamDmaCopiesPage
  intro v s hs hv hoff t
  have hk : s.tick.dev.OamAt s.dev.ppu.oamAddr := .of_resting ⟨hoff, rfl⟩ (resting_tick (.refl hoff) s.env)
  obtain ⟨u, hdma, hmem, hu⟩ := State.oamDma_eq v hk
  have ht : t.mem = (u.dmaBytes v 256).mem := (State.write_mem_dma v s).trans (congrArg State.mem hdma)
  have hwf : u.mem.wf = true := by
    rw [hmem]
    exact hs.1
  obtain ⟨hcopied, -⟩ := State.dmaBytes_ram hv (Nat.le_refl 256) hwf hu
  refine ⟨fun i hi => ?_, fun l hl => ?_, State.write_cpu _ _ _⟩
  · have hbyte := hcopied i hi
    rw [Nat.sub_self, Nat.zero_add] at hbyte
    unfold State.ramByte State.byteAt at hbyte ⊢
    rw [ht, ← show u.mem = s.mem from hmem]
    exact hbyte
  · exact State.write_byteAt_other v s (by unfold State.WritesTo; rw [if_pos rfl]; exact hl)

end Sys2Proof.Machine
end

section
/-! The PPU's registers as the CPU sees them (51_ppu.md R300 to R308, R342 to R345): PPUSTATUS, the scroll registers and
the NMI edge. -/

namespace Sys2Proof.Machine

/-! ### O53: PPUSTATUS (R304, R345) -/

/-- Bit 7 of the status: vblank, once it is more than three dots old. -/
theorem statusRace_returned (p : Ppu) : (statusRace p).1 = (p.vblank && decide (3 < p.vblAge)) := by
  unfold statusRace
  split
  case isTrue hset =>
    rw [hset, Bool.true_and]
    split
    · exact (decide_eq_false (by omega)).symm
    · split
      · exact (decide_eq_false (by omega)).symm
      · exact (decide_eq_true (by omega)).symm
  case isFalse hclear => simp [hclear]

/-- The read leaves vblank only where it is too young to be seen. -/
theorem statusRace_cleared (p : Ppu) : (p.vblank && !(statusRace p).2.1) = (p.vblank && decide (p.vblAge < 3)) := by
  unfold statusRace
  split
  case isTrue hset =>
    rw [hset, Bool.true_and, Bool.true_and]
    split
    · exact (decide_eq_true (by omega)).symm
    · split
      · exact (decide_eq_false (by omega)).symm
      · exact (decide_eq_false (by omega)).symm
  case isFalse hclear => simp [hclear]

/-- At age 3 the flag is cleared and the request dropped. -/
theorem statusRace_age_three {p : Ppu} (hset : p.vblank = true) (hage : p.vblAge = 3) :
    statusRace p = (false, true, true) := by
  simp [statusRace, hset, hage]

/-- The status byte bit by bit. -/
theorem bitOf_statusByte (p : Ppu) (b7 : Bool) :
    bitOf (statusByte p b7) 7 = b7 ∧ bitOf (statusByte p b7) 6 = p.sprite0Hit ∧
      bitOf (statusByte p b7) 5 = p.spriteOverflow := by
  refine ⟨?_, ?_, ?_⟩
  all_goals
    unfold statusByte
    rw [bitOf_or, bitOf_or, bitOf_or, bitOf_bitAt _ (by decide) (by decide), bitOf_bitAt _ (by decide) (by decide),
      bitOf_bitAt _ (by decide) (by decide)]
    simp [bitOf]

/-- Its low five bits are the latch's. -/
theorem statusByte_low (p : Ppu) (b7 : Bool) : statusByte p b7 &&& 0x1F#8 = p.openBus.latch &&& 0x1F#8 := by
  have hflags : ∀ b7 b6 b5 : Bool, (bitAt b7 7 ||| bitAt b6 6 ||| bitAt b5 5) &&& 0x1F#8 = 0#8 := by decide
  unfold statusByte
  rw [BitVec.and_or_distrib_right, hflags, BitVec.zero_or, BitVec.and_assoc, BitVec.and_self]

theorem busRead_status (e : Env) (d : Devices) : busRead e 0x2002#16 d = readStatus d := by
  have htarget : busTarget 0x2002#16 = .ppu 2 := rfl
  unfold busRead
  rw [htarget]
  rfl

/-- Settles O53: the byte is the flags and the latch, and the race decides by age. -/
theorem statusRead : Obligations.StatusRead := by
  unfold Obligations.StatusRead
  intro e d
  obtain ⟨h7, h6, h5⟩ := bitOf_statusByte d.ppu (statusRace d.ppu).1
  rw [busRead_status]
  refine ⟨h6, h5, statusByte_low d.ppu _, rfl, h7.trans (statusRace_returned _), statusRace_cleared _, ?_⟩
  intro hset hage
  simp [readStatus, updateNmi, statusRace_age_three hset hage]

/-! ### O54: PPUADDR and PPUSCROLL (R307, R308) -/

/-- Bit `i` of a merge: from `new` under the mask, else from `v`. -/
theorem getLsbD_merge {w : Nat} (mask v new : BitVec w) (i : Nat) :
    (merge mask v new).getLsbD i = if mask.getLsbD i then new.getLsbD i else v.getLsbD i := by
  by_cases hi : i < w
  · simp only [merge, BitVec.getLsbD_or, BitVec.getLsbD_and, BitVec.getLsbD_not, hi, decide_true, Bool.true_and]
    cases mask.getLsbD i <;> simp
  · simp [BitVec.getLsbD_of_ge, Nat.le_of_not_lt hi]

/-- The second PPUADDR byte under the first makes the fourteen address bits. -/
theorem merge_addr (t : BitVec 15) (b1 b2 : Byte) :
    merge 0xFF#15 (merge 0x7F00#15 t ((b1 &&& 0x3F#8).setWidth 15 <<< 8)) (b2.setWidth 15) =
      ((b1 &&& 0x3F#8) ++ b2).setWidth 15 := by
  refine BitVec.eq_of_getLsbD_eq fun i hi => ?_
  rw [getLsbD_merge, getLsbD_merge, BitVec.getLsbD_setWidth, BitVec.getLsbD_setWidth, BitVec.getLsbD_append]
  interval_cases i <;> simp

/-- The two PPUSCROLL bytes around the nametable bits. -/
theorem merge_scroll (t : BitVec 15) (b1 b2 : Byte) :
    merge 0x73E0#15 (merge 0x1F#15 t (b1.setWidth 15 >>> 3))
        ((b2.setWidth 15 <<< 12) ||| ((b2.setWidth 15 >>> 3) <<< 5)) =
      (b2.setWidth 3 ++ t.extractLsb' 10 2 ++ b2.extractLsb' 3 5 ++ b1.extractLsb' 3 5 : BitVec 15) := by
  refine BitVec.eq_of_getLsbD_eq fun i hi => ?_
  rw [getLsbD_merge, getLsbD_merge, BitVec.getLsbD_append, BitVec.getLsbD_append, BitVec.getLsbD_append]
  interval_cases i <;> simp

theorem writeScroll_writeScroll (b1 b2 : Byte) {s : Scroll} (hw : s.w = false) :
    writeScroll b2 (writeScroll b1 s) =
      { s with
        t := b2.setWidth 3 ++ s.t.extractLsb' 10 2 ++ b2.extractLsb' 3 5 ++ b1.extractLsb' 3 5
        x := b1.setWidth 3, w := false } := by
  unfold writeScroll
  rw [hw, if_neg Bool.false_ne_true, if_pos rfl, merge_scroll]

theorem ppuRegWrite_scroll (e : Env) (v : Byte) (d : Devices) :
    (ppuRegWrite e 5 v d).ppu.scroll = writeScroll v d.ppu.scroll := rfl

/-- The first PPUADDR write. -/
theorem ppuRegWrite_addr_first (e : Env) (v : Byte) {d : Devices} (hw : d.ppu.scroll.w = false) :
    (ppuRegWrite e 6 v d).ppu.scroll =
      { d.ppu.scroll with
        t := merge 0x7F00#15 d.ppu.scroll.t ((v &&& 0x3F#8).setWidth 15 <<< 8), w := true } := by
  show (writeAddr e v (refreshAll v d)).ppu.scroll = _
  unfold writeAddr
  rw [if_neg (by simp [refreshAll, hw])]
  rfl

/-- The second one. -/
theorem ppuRegWrite_addr_second (e : Env) (v : Byte) {d : Devices} (hw : d.ppu.scroll.w = true) :
    (ppuRegWrite e 6 v d).ppu.scroll =
      { d.ppu.scroll with
        v := merge 0xFF#15 d.ppu.scroll.t (v.setWidth 15), t := merge 0xFF#15 d.ppu.scroll.t (v.setWidth 15)
        w := false } := by
  show (writeAddr e v (refreshAll v d)).ppu.scroll = _
  unfold writeAddr
  rw [if_pos (by simp [refreshAll, hw])]
  rfl

/-- Settles O54: each pair is two merges into `t`, and only PPUADDR's second goes on to `v`. -/
theorem scrollWrites : Obligations.ScrollWrites := by
  unfold Obligations.ScrollWrites
  intro e b1 b2 d hw
  have hfirst := ppuRegWrite_addr_first e b1 hw
  have haddr := ppuRegWrite_addr_second e b2 (congrArg Scroll.w hfirst)
  rw [hfirst, merge_addr] at haddr
  dsimp only
  rw [haddr, ppuRegWrite_scroll, ppuRegWrite_scroll, writeScroll_writeScroll b1 b2 hw]
  exact ⟨rfl, rfl, rfl, rfl, rfl, rfl, rfl⟩

/-! ### O55: the NMI edge (R302, R342 to R344) -/

/-- Settles O55: the level after the write is compared with the level before it, which agrees with the old bit 7. -/
theorem nmiEdge : Obligations.NmiEdge := by
  unfold Obligations.NmiEdge
  intro v d hlevel
  refine ⟨?_, rfl⟩
  have hrequest : (writeCtrl v d).nmiRequest =
      (d.nmiRequest || ((d.ppu.vblank && bitOf v 7) && !d.ppu.nmiLevel)) := rfl
  rw [hrequest, hlevel]
  cases d.ppu.vblank <;> cases bitOf v 7 <;> cases bitOf d.ppu.ctrl 7 <;> rfl

end Sys2Proof.Machine
end

section
/-! The cartridge's bank arithmetic and MMC1's serial port (53_cartridge_mappers.md R430, R436), and the joypads' shift
registers (54_joypad.md R481 to R483). -/

namespace Sys2Proof.Machine

/-! ### O60: bank arithmetic (R430) -/

theorem bankOffset_lt {N : Nat} (hN : 0 < N) (S b a : Nat) : bankOffset N S b a < N := Nat.mod_lt _ hN

/-- A memory no smaller than the window has a bank. -/
theorem bankCount_eq {N S : Nat} (hS : 0 < S) (hSN : S ≤ N) : bankCount N S = N / S :=
  max_eq_right (Nat.div_pos hSN hS)

/-- The banks fill the memory from its start, so no offset in one of them wraps. -/
theorem bankOffset_eq {N S : Nat} (hS : 0 < S) (hSN : S ≤ N) (b a : Nat) :
    bankOffset N S b a = b % (N / S) * S + a % S := by
  have hbank : b % (N / S) + 1 ≤ N / S := Nat.mod_lt b (Nat.div_pos hSN hS)
  have hinside : b % (N / S) * S + a % S < N :=
    calc b % (N / S) * S + a % S < b % (N / S) * S + S := Nat.add_lt_add_left (Nat.mod_lt a hS) _
      _ = (b % (N / S) + 1) * S := (Nat.succ_mul _ _).symm
      _ ≤ N / S * S := Nat.mul_le_mul_right S hbank
      _ ≤ N := Nat.div_mul_le_self N S
  rw [bankOffset, bankCount_eq hS hSN, Nat.mod_eq_of_lt hinside]

/-- Bank `-k` of `n`, for `k` from 1 to `n`. -/
theorem bankFromEnd_eq {n k : Nat} (hk : 1 ≤ k) (hkn : k ≤ n) : bankFromEnd n k = n - k := by
  unfold bankFromEnd
  rcases Nat.lt_or_eq_of_le hkn with hlt | rfl
  · rw [Nat.mod_eq_of_lt hlt, Nat.mod_eq_of_lt (by omega)]
  · rw [Nat.mod_self, Nat.sub_zero, Nat.mod_self, Nat.sub_self]

theorem bankOffsetFromEnd_eq {N S k : Nat} (hS : 0 < S) (hSN : S ≤ N) (hk : 1 ≤ k) (hkn : k ≤ N / S) (a : Nat) :
    bankOffsetFromEnd N S k a = (N / S - k) * S + a % S := by
  have hbank : (N / S - k) % (N / S) = N / S - k := Nat.mod_eq_of_lt (by omega)
  rw [bankOffsetFromEnd, bankCount_eq hS hSN, bankFromEnd_eq hk hkn, bankOffset_eq hS hSN, hbank]

/-- Settles O60: a bank number below the number of banks stays as it is, and its bank lies inside the memory. -/
theorem bankArithmetic : Obligations.BankArithmetic := by
  unfold Obligations.BankArithmetic
  intro N S b a hS hN
  exact ⟨bankOffset_lt hN S b a, fun hSN =>
    ⟨bankOffset_eq hS hSN b a, fun k hk hkn => bankOffsetFromEnd_eq hS hSN hk hkn a⟩⟩

/-! ### O59: MMC1's serial port (R436) -/

/-- The port with one more bit. -/
def Mmc1.shiftIn (b : Bool) (sh : BitVec 5) : BitVec 5 := (sh >>> 1) ||| (if b then 0x10#5 else 0#5)

/-- No write in the bus cycle before `c`. -/
def Mmc1.IdleBefore (m : Mmc1) (c : Nat) : Prop := ∀ l, m.lastWriteCycle = some l → l + 1 < c

theorem Mmc1.idleBefore_of_lt {m : Mmc1} {c0 c : Nat} (hlast : m.lastWriteCycle = some c0) (hc : c0 + 1 < c) :
    m.IdleBefore c := by
  intro l hl
  obtain rfl : c0 = l := Option.some.inj (hlast.symm.trans hl)
  exact hc

/-- After an idle cycle a write of a byte with bit 7 clear goes into the port; the fifth loads a register. -/
theorem Mmc1.write_eq {m : Mmc1} {v : Byte} {c : Nat} (hidle : m.IdleBefore c) (hv : bitOf v 7 = false) (a : Word) :
    m.write a v c =
      if m.count + 1 = 5 then
        { ({ m with lastWriteCycle := some c } : Mmc1).load (a.toNat / 8192 % 4) (Mmc1.shiftIn (bitOf v 0) m.shift) with
          shift := 0#5, count := 0 }
      else { m with shift := Mmc1.shiftIn (bitOf v 0) m.shift, count := m.count + 1, lastWriteCycle := some c } := by
  unfold Mmc1.write
  dsimp only
  refine (if_neg ?_).trans ?_
  · cases hlast : m.lastWriteCycle with
    | none => exact Bool.false_ne_true
    | some l => exact ne_true_of_eq_false (decide_eq_false (Nat.ne_of_lt (hidle l hlast)))
  · rw [hv, if_neg Bool.false_ne_true]
    rfl

/-- One of the first four writes. -/
theorem Mmc1.write_of_count_lt {m : Mmc1} {v : Byte} {c : Nat} (hidle : m.IdleBefore c) (hv : bitOf v 7 = false)
    (hcount : m.count < 4) (a : Word) :
    m.write a v c =
      { m with shift := Mmc1.shiftIn (bitOf v 0) m.shift, count := m.count + 1, lastWriteCycle := some c } := by
  rw [Mmc1.write_eq hidle hv, if_neg (by omega)]

/-- The load writes the selected register and keeps everything else. -/
theorem Mmc1.load_eq (m : Mmc1) (a : Nat) (v : BitVec 5) :
    m.load (a % 4) v =
      { m with
        control := if a % 4 = 0 then v else m.control, chr0 := if a % 4 = 1 then v else m.chr0
        chr1 := if a % 4 = 2 then v else m.chr1, prg := if a % 4 = 3 then v else m.prg } := by
  have hlt : a % 4 < 4 := Nat.mod_lt a (by decide)
  generalize a % 4 = reg at hlt ⊢
  interval_cases reg <;> rfl

/-- Five bits push out whatever was in the port. -/
theorem Mmc1.shiftIn_five (sh : BitVec 5) (b0 b1 b2 b3 b4 : Bool) :
    shiftIn b4 (shiftIn b3 (shiftIn b2 (shiftIn b1 (shiftIn b0 sh)))) = BitVec.ofBoolListLE [b0, b1, b2, b3, b4] := by
  revert sh b0 b1 b2 b3 b4
  decide +kernel

/-- Settles O59: four writes shift, the fifth shifts and loads. -/
theorem mmc1SerialLoad : Obligations.Mmc1SerialLoad := by
  unfold Obligations.Mmc1SerialLoad
  intro m a0 a1 a2 a3 a4 v0 v1 v2 v3 v4 c0 c1 c2 c3 c4 hcount hidle h01 h12 h23 h34 hbytes
  simp only [List.mem_cons, List.not_mem_nil, or_false, forall_eq_or_imp, forall_eq] at hbytes
  obtain ⟨hv0, hv1, hv2, hv3, hv4⟩ := hbytes
  rw [Mmc1.write_of_count_lt hidle hv0 (by omega),
    Mmc1.write_of_count_lt (Mmc1.idleBefore_of_lt rfl h01) hv1 (by simp [hcount]),
    Mmc1.write_of_count_lt (Mmc1.idleBefore_of_lt rfl h12) hv2 (by simp [hcount]),
    Mmc1.write_of_count_lt (Mmc1.idleBefore_of_lt rfl h23) hv3 (by simp [hcount]),
    Mmc1.write_eq (Mmc1.idleBefore_of_lt rfl h34) hv4, if_pos (by simp [hcount]), Mmc1.shiftIn_five, Mmc1.load_eq]
  exact ⟨rfl, rfl, rfl, rfl, rfl, rfl, rfl⟩

/-! ### O58: the joypads (R481 to R483) -/

/-- `k` reads after a strobe: the buttons have moved down by `k` places and ones have come in above. -/
def Joypad.ShiftedBy (buttons : Byte) (k : Nat) (j : Joypad) : Prop :=
  j.strobe = false ∧ ∀ i, i < 8 → bitOf j.shift i = if i + k < 8 then bitOf buttons (i + k) else true

/-- The strobe takes the buttons into the shift register. -/
theorem Joypad.shiftedBy_strobe (j : Joypad) : ((j.write 1#8).write 0#8).ShiftedBy j.buttons 0 := by
  have hshift : ((j.write 1#8).write 0#8).shift = j.buttons := by simp [Joypad.write, bitOf]
  refine ⟨rfl, fun i hi => ?_⟩
  rw [hshift, Nat.add_zero, if_pos hi]

theorem Joypad.ShiftedBy.read {buttons : Byte} {k : Nat} {j : Joypad} (h : j.ShiftedBy buttons k) (ob : Byte) :
    (j.read ob).2.ShiftedBy buttons (k + 1) := by
  obtain ⟨hstrobe, hshift⟩ := h
  have hread : (j.read ob).2.shift = (j.shift >>> 1) ||| 0x80#8 := by simp [Joypad.read, hstrobe]
  refine ⟨hstrobe, fun i hi => ?_⟩
  rw [hread, bitOf_or]
  by_cases htop : i = 7
  · subst htop
    rw [if_neg (by omega)]
    simp [bitOf]
  · have hones : bitOf 0x80#8 i = false := by
      have hlow : ∀ i : Fin 8, i.val ≠ 7 → bitOf 0x80#8 i.val = false := by decide
      exact hlow ⟨i, hi⟩ htop
    have hdown : bitOf (j.shift >>> 1) i = bitOf j.shift (i + 1) := by
      simp [bitOf, BitVec.getLsbD_ushiftRight, Nat.add_comm]
    rw [hones, hdown, Bool.or_false, hshift (i + 1) (by omega), Nat.add_right_comm, Nat.add_assoc]

theorem Joypad.ShiftedBy.reads {buttons : Byte} {j : Joypad} (h : j.ShiftedBy buttons 0) (ob : Byte) (k : Nat) :
    ((fun q : Joypad => (q.read ob).2)^[k] j).ShiftedBy buttons k := by
  induction k with
  | zero => exact h
  | succ k ih =>
    rw [Function.iterate_succ_apply']
    exact ih.read ob

/-- A byte's bit 0 as a byte. -/
theorem and_one_eq_bitAt : ∀ v : Byte, v &&& 1#8 = bitAt (bitOf v 0) 0 := by decide

/-- Settles O58: read `k` returns bit 0 of a register that `k` reads have shifted. -/
theorem joypadShiftsOut : Obligations.JoypadShiftsOut := by
  unfold Obligations.JoypadShiftsOut
  intro j ob k
  obtain ⟨hstrobe, hshift⟩ := j.shiftedBy_strobe.reads ob k
  dsimp only
  generalize (fun q : Joypad => (q.read ob).2)^[k] ((j.write 1#8).write 0#8) = before at hstrobe hshift ⊢
  have hbit := hshift 0 (by decide)
  rw [Nat.zero_add] at hbit
  rw [← hbit, ← and_one_eq_bitAt]
  simp [Joypad.read, Joypad.nextBit, hstrobe]

end Sys2Proof.Machine
end

section
/-! The step (60_exceptions.md R490 to R499): the interrupt entry, which event a step takes, the instruction it runs
otherwise, and what every step leaves alone. -/

namespace Sys2Proof.Machine

/-! ### O39: the interrupt entry (R498, R499) -/

/-- NMI and IRQ push the hardware's status byte. -/
theorem Interrupt.pushedStatus_eq {k : Interrupt} (hk : k ≠ .brk) (p : Byte) :
    k.pushedStatus p = (p ||| 0x20#8) &&& 0xEF#8 := by
  cases k with
  | nmi | irq => rfl
  | brk => exact absurd rfl hk

theorem State.interruptEntry_cpu (k : Interrupt) (s : State) :
    (s.interruptEntry k).cpu =
      { s.cpu with s := s.cpu.s - 3#8, p := s.cpu.p ||| 0x04#8, pc := (s.interruptEntry k).cpu.pc } :=
  s.dummyFetch.dummyFetch.enterHandler_cpu k

theorem State.interruptEntry_stackByte (k : Interrupt) {s : State} (hs : s.mem.wf = true) :
    (s.interruptEntry k).stackByte s.cpu.s = hi s.cpu.pc ∧
      (s.interruptEntry k).stackByte (s.cpu.s - 1#8) = lo s.cpu.pc ∧
      (s.interruptEntry k).stackByte (s.cpu.s - 2#8) = k.pushedStatus s.cpu.p :=
  State.enterHandler_stackByte (s := s.dummyFetch.dummyFetch) k hs

theorem State.dummyFetch_keepsMemory (s : State) : KeepsMemory s s.dummyFetch := s.read_keepsMemory s.cpu.pc

theorem State.interruptEntry_keepsAllButStack (k : Interrupt) (s : State) :
    KeepsAllButStack [s.cpu.s, s.cpu.s - 1#8, s.cpu.s - 2#8] s (s.interruptEntry k) :=
  (s.dummyFetch_keepsMemory.trans s.dummyFetch.dummyFetch_keepsMemory).then_keepsAllButStack
    (s.dummyFetch.dummyFetch.enterHandler_keepsAllButStack k)

theorem takes_interruptEntry (k : Interrupt) (s : State) : TakesIdle 7 s (s.interruptEntry k) :=
  ((takes_dummyFetch s).trans (takes_dummyFetch _)).trans (takes_enterHandler k _)

/-- The vector's word is what `Peek` shows before the entry: no cycle of it writes the cartridge. -/
theorem State.interruptEntry_pc {k : Interrupt} (hk : k ≠ .brk) (s : State) :
    (s.interruptEntry k).cpu.pc =
      if k = .nmi ∨
          (s.dummyFetch.dummyFetch.pushPc.push ((s.cpu.p ||| 0x20#8) &&& 0xEF#8)).dev.nmiRequest = true then
        s.peekWord 0xFFFA#16 0xFFFB#16
      else s.peekWord 0xFFFE#16 0xFFFF#16 := by
  have hsame : s.SameCartPeek s.dummyFetch.dummyFetch := (((State.SamePeek.refl s).read s.cpu.pc).read s.cpu.pc).cart
  rw [← Interrupt.pushedStatus_eq hk, ← hsame.peekWord (by decide) (by decide),
    ← hsame.peekWord (by decide) (by decide)]
  exact s.dummyFetch.dummyFetch.enterHandler_pc k

/-- Settles O39: two dummy reads, then the entry shared with BRK. -/
theorem interruptEntry : Obligations.InterruptEntry := by
  unfold Obligations.InterruptEntry
  intro k s hk hs
  obtain ⟨hhigh, hlow, hstatus⟩ := State.interruptEntry_stackByte k hs.1
  exact ⟨s.interruptEntry_cpu k, hhigh, hlow, hstatus.trans (Interrupt.pushedStatus_eq hk _),
    s.interruptEntry_keepsAllButStack k, (takes_interruptEntry k s).takes, State.interruptEntry_pc hk s⟩

/-! ### What a step does (R490) -/

/-- A CPU that is not jammed takes its pending event, or else runs an instruction. -/
theorem step_not_jammed {s : State} (hj : s.cpu.jammed = false) :
    step s = match s.beginStep.pendingEvent with
      | some .nmi => .next s.beginStep.nmiStep.endStep
      | some k => .next (s.beginStep.interruptEntry k).endStep
      | none => runInstruction s.beginStep := by
  have hnot : ¬s.beginStep.cpu.jammed = true := by
    rw [State.beginStep_cpu, hj]
    exact Bool.false_ne_true
  exact if_neg hnot

theorem step_nmi {s : State} (hj : s.cpu.jammed = false) (hnmi : s.dev.nmiRequest = true) :
    step s = .next s.beginStep.nmiStep.endStep := by
  have hevent : s.beginStep.pendingEvent = some .nmi := if_pos hnmi
  rw [step_not_jammed hj, hevent]

theorem step_irq {s : State} (hj : s.cpu.jammed = false) (hnmi : s.dev.nmiRequest = false)
    (hirq : s.cpu.irqLatch = true) : step s = .next (s.beginStep.interruptEntry .irq).endStep := by
  have hevent : s.beginStep.pendingEvent = some .irq := by simp [State.pendingEvent, hnmi, hirq]
  rw [step_not_jammed hj, hevent]

theorem step_instruction {s : State} (hj : s.cpu.jammed = false) (hnmi : s.dev.nmiRequest = false)
    (hirq : s.cpu.irqLatch = false) : step s = runInstruction s.beginStep := by
  have hevent : s.beginStep.pendingEvent = none := by simp [State.pendingEvent, hnmi, hirq]
  rw [step_not_jammed hj, hevent]

/-! ### O4: the instruction (R100, R101) -/

/-- Settles O4: the fetched byte begins the stream, so it is the opcode byte that both decoders read. -/
theorem stepRunsDecodedInstruction : Obligations.StepRunsDecodedInstruction := by
  unfold Obligations.StepRunsDecodedInstruction
  intro s rest d hj hnmi hirq hdecode
  obtain ⟨op, hinstr, -, hbytes⟩ := decode_eq_ok_iff.1 hdecode
  obtain ⟨rfl, -⟩ := List.cons.inj hbytes
  refine ⟨fun t hexec => ?_, rfl, s.beginStep.fetch_keepsMemory⟩
  rw [hinstr] at hexec
  rw [step_instruction hj hnmi hirq]
  exact congrArg finish hexec

/-! ### O6: the priority (R490, R497) -/

theorem bitOf_or_flagI (p : Byte) : bitOf (p ||| 0x04#8) flagI = true :=
  (bitOf_or p 0x04#8 flagI).trans (Bool.or_true _)

/-- An NMI step starts its entry with the request and the latch cleared. -/
def State.takeNmi (s : State) : State :=
  { s.beginStep with cpu := { s.cpu with irqLatch := false }, dev := { s.dev with nmiRequest := false } }

theorem State.takeNmi_sameCartPeek (s : State) : s.SameCartPeek s.takeNmi :=
  State.sameCartPeek_of_sameMap rfl rfl rfl fun _ _ _ => rfl

theorem State.takeNmi_entry_pc (s : State) :
    (s.takeNmi.interruptEntry .nmi).cpu.pc = s.peekWord 0xFFFA#16 0xFFFB#16 := by
  rw [State.interruptEntry_pc (by decide), if_pos (.inl rfl)]
  exact s.takeNmi_sameCartPeek.peekWord (by decide) (by decide)

theorem State.beginStep_entry_pc (s : State) :
    (s.beginStep.interruptEntry .irq).cpu.pc =
      if (s.beginStep.dummyFetch.dummyFetch.pushPc.push ((s.cpu.p ||| 0x20#8) &&& 0xEF#8)).dev.nmiRequest then
        s.peekWord 0xFFFA#16 0xFFFB#16
      else s.peekWord 0xFFFE#16 0xFFFF#16 := by
  rw [State.interruptEntry_pc (by decide)]
  simp only [reduceCtorEq, false_or]
  rfl

/-- Of an entry the end of the step changes only the latch. -/
theorem State.endStep_interruptEntry_cpu (k : Interrupt) (s : State) :
    (s.interruptEntry k).endStep.cpu.s = s.cpu.s - 3#8 ∧
      bitOf (s.interruptEntry k).endStep.cpu.p flagI = true := by
  rw [State.endStep_cpu, State.interruptEntry_cpu]
  exact ⟨rfl, bitOf_or_flagI _⟩

/-- Settles O6: each event's step is an entry, and the conditions exclude one another. -/
theorem stepEventPriority : Obligations.StepEventPriority := by
  unfold Obligations.StepEventPriority
  intro s
  cases hj : s.cpu.jammed
  case true =>
    exact ⟨_, step_jammed hj, fun _ => ⟨rfl, .of_mem rfl rfl rfl⟩, fun h => Bool.noConfusion h,
      fun h => Bool.noConfusion h⟩
  case false =>
    cases hnmi : s.dev.nmiRequest
    case true =>
      obtain ⟨hs, hp⟩ := s.takeNmi.endStep_interruptEntry_cpu .nmi
      exact ⟨_, step_nmi hj hnmi, fun h => Bool.noConfusion h,
        fun _ _ => ⟨rfl, s.takeNmi_entry_pc, hs, hp⟩, fun _ h => Bool.noConfusion h⟩
    case false =>
      cases hirq : s.cpu.irqLatch
      case true =>
        obtain ⟨hs, hp⟩ := s.beginStep.endStep_interruptEntry_cpu .irq
        exact ⟨_, step_irq hj hnmi hirq, fun h => Bool.noConfusion h, fun _ h => Bool.noConfusion h,
          fun _ _ _ => ⟨rfl, s.beginStep_entry_pc, hs, hp⟩⟩
      case false =>
        obtain ⟨t, hstep, -⟩ := step_runs s
        exact ⟨t, hstep, fun h => Bool.noConfusion h, fun _ h => Bool.noConfusion h,
          fun _ _ h => Bool.noConfusion h⟩

/-! ### O5: what every step leaves alone, and the time it takes (R37, R318, R492) -/

/-- MMC5's nametables lie in no CHR memory (R464). -/
theorem Mmc5.ntWriteLoc_ne_chr (m : Mmc5) (a o : Nat) : m.ntWriteLoc a ≠ .chr o := by
  unfold Mmc5.ntWriteLoc
  dsimp only
  split <;> exact ChrLoc.noConfusion

/-- CHR-ROM is never written (R427). -/
theorem Mapper.ppuMapWrite_ne_chr {c : Cart} (hrom : c.chrIsRam = false) (mp : Mapper) (a : PpuAddr) (o : Nat) :
    mp.ppuMapWrite c a ≠ .chr o := by
  unfold Mapper.ppuMapWrite
  rw [hrom]
  split
  · exact ChrLoc.noConfusion
  · split
    · split
      · exact Mmc5.ntWriteLoc_ne_chr _ _ o
      · exact ChrLoc.noConfusion
    · exact ChrLoc.noConfusion

theorem ppuStoreLoc_kind {e : Env} (hrom : e.cart.chrIsRam = false) (d : Devices) (a : PpuAddr) {l : Location}
    (h : ppuStoreLoc e d a = some l) : l.kind ≠ .chr := by
  unfold ppuStoreLoc at h
  split at h
  case h_1 o hmap => exact absurd hmap (Mapper.ppuMapWrite_ne_chr hrom _ _ o)
  case h_5 =>
    split at h
    · cases h
    · split at h <;> cases h <;> exact MemKind.noConfusion
  case h_4 => cases h
  all_goals
    cases h
    exact MemKind.noConfusion

theorem Mapper.cpuStoreLoc_kind (mp : Mapper) (c : Cart) (a : Word) {l : Location} (h : mp.cpuStoreLoc c a = some l) :
    l.kind ≠ .chr := by
  unfold Mapper.cpuStoreLoc at h
  split at h <;> cases h <;> exact MemKind.noConfusion

theorem busStoreLoc_kind {e : Env} (hrom : e.cart.chrIsRam = false) (a : Word) (d : Devices) {l : Location}
    (h : busStoreLoc e a d = some l) : l.kind ≠ .chr := by
  unfold busStoreLoc at h
  split at h
  · cases h
    exact MemKind.noConfusion
  · unfold ppuRegStoreLoc at h
    split at h
    · cases h
      exact MemKind.noConfusion
    · exact ppuStoreLoc_kind hrom d _ h
    · cases h
  · cases h
  · exact Mapper.cpuStoreLoc_kind _ _ _ h

theorem Memories.store_chr (m : Memories) {l : Location} (hl : l.kind ≠ .chr) (v : Byte) :
    (m.store l v).chr = m.chr := by
  unfold Memories.store
  split
  case h_3 hkind => exact absurd hkind hl
  all_goals rfl

theorem Memories.storeAt_chr (m : Memories) {l : Option Location} (hl : ∀ l', l = some l' → l'.kind ≠ .chr) (v : Byte) :
    (m.storeAt l v).chr = m.chr := by
  cases l with
  | none => rfl
  | some l => exact m.store_chr (hl l rfl) v

/-- What is fixed at construction is the same in `t` as in `s`, and no time has been taken back. -/
def State.Onward (s t : State) : Prop :=
  s.dev.cycles ≤ t.dev.cycles ∧ t.params = s.params ∧ t.cart = s.cart ∧
    (s.cart.chrIsRam = false → t.mem.chr = s.mem.chr)

theorem State.Onward.refl (s : State) : s.Onward s := ⟨Nat.le_refl _, rfl, rfl, fun _ => rfl⟩

theorem State.Onward.trans {s t u : State} (h : s.Onward t) (h' : t.Onward u) : s.Onward u := by
  obtain ⟨hcycles, hparams, hcart, hchr⟩ := h
  obtain ⟨hcycles', hparams', hcart', hchr'⟩ := h'
  rw [hcart] at hchr'
  exact ⟨hcycles.trans hcycles', hparams'.trans hparams, hcart'.trans hcart,
    fun hrom => (hchr' hrom).trans (hchr hrom)⟩

theorem Act.onward {s t : State} (h : Act s t) : s.Onward t := by
  cases h with
  | tick =>
    have hcycles : s.tick.dev.cycles = s.dev.cycles + 1 := tick_cycles s.env s.dev
    exact ⟨by omega, rfl, rfl, fun _ => rfl⟩
  | busRead a =>
    obtain ⟨hcycles, -, -⟩ := busRead_counters s.env a s.dev
    exact ⟨Nat.le_of_eq hcycles.symm, rfl, rfl, fun _ => rfl⟩
  | busWrite a v =>
    have hcycles := busWriteDevices_cycles s.env a v s.dev
    exact ⟨Nat.le_of_eq hcycles.symm, rfl, rfl,
      fun hrom => Memories.storeAt_chr s.mem (fun l => busStoreLoc_kind hrom a s.dev) v⟩
  | wires latch last stall nmi => exact .refl s
  | cpu c poll hc => exact .refl s

theorem Runs.onward {s t : State} (h : Runs s t) : s.Onward t :=
  h.keeps (I := s.Onward) (fun _ _ hact hs => hs.trans hact.onward) (.refl s)

theorem Runs.params_eq {s t : State} (h : Runs s t) : t.params = s.params := by
  obtain ⟨-, hparams, -⟩ := h.onward
  exact hparams

/-- A read cycle takes a cycle at least. -/
theorem State.cycles_lt_read (a : Word) (s : State) : s.dev.cycles < (s.read a).2.dev.cycles := by
  have hserve := (Runs.serveStall (t := s) (stallDummy s.env a s.dev) (stallFuel s.dev) (.refl s)).onward.1
  obtain ⟨hread, -, -⟩ := busRead_counters s.env a
    (Machine.tick s.env (Machine.serveStall s.env (stallDummy s.env a s.dev) (stallFuel s.dev) s.dev))
  rw [tick_cycles] at hread
  exact Nat.lt_of_lt_of_eq (Nat.lt_succ_of_le hserve) hread.symm

/-- Every step begins with a read cycle (R490): the fetch or a dummy read at PC. -/
theorem step_begins_with_read (s : State) :
    ∃ (t u : State) (a : Word), step s = .next t ∧ u.dev.cycles = s.dev.cycles ∧ Runs (u.read a).2 t := by
  cases hj : s.cpu.jammed
  case true => exact ⟨_, s.beginStep, s.cpu.pc, step_jammed hj, rfl, (Runs.refl _).setCpu _ rfl⟩
  case false =>
    cases hnmi : s.dev.nmiRequest
    case true =>
      exact ⟨_, s.takeNmi, s.cpu.pc, step_nmi hj hnmi, rfl, ((Runs.refl _).dummyFetch.enterHandler .nmi).endStep⟩
    case false =>
      cases hirq : s.cpu.irqLatch
      case true =>
        exact ⟨_, s.beginStep, s.cpu.pc, step_irq hj hnmi hirq, rfl,
          ((Runs.refl _).dummyFetch.enterHandler .irq).endStep⟩
      case false =>
        obtain ⟨t, hexec, ht⟩ := exec_runs (decodeOpcode s.beginStep.fetch.1) s.beginStep.fetch.2
        refine ⟨t.endStep, s.beginStep, s.cpu.pc, ?_, rfl, (((Runs.refl _).setPc _).trans ht).endStep⟩
        rw [step_instruction hj hnmi hirq]
        exact congrArg finish hexec

/-- Settles O5: a step is a run of acts, and its first read takes time. -/
theorem everyStepAdvances : Obligations.EveryStepAdvances := by
  unfold Obligations.EveryStepAdvances
  intro s
  obtain ⟨t, u, a, hstep, hu, hruns⟩ := step_begins_with_read s
  obtain ⟨t', hstep', hruns'⟩ := step_runs s
  obtain rfl : t' = t := Host.Outcome.next.inj (hstep'.symm.trans hstep)
  obtain ⟨-, hparams, hcart, hchr⟩ := hruns'.onward
  have hread := u.cycles_lt_read a
  have hrest := hruns.onward.1
  exact ⟨_, hstep, by omega, hparams, hcart, hchr⟩

/-! ### O7: the IRQ latch (R494) -/

/-- A step of a CPU that is not jammed ends with the assignment of the latch. -/
theorem step_ends_with_latch {s : State} (hj : s.cpu.jammed = false) :
    ∃ u : State, step s = .next u.endStep ∧ u.params = s.params := by
  have h := (Runs.refl s).beginStep
  rw [step_not_jammed hj]
  split
  · exact ⟨_, rfl, h.nmiStep.params_eq⟩
  · exact ⟨_, rfl, (h.interruptEntry _).params_eq⟩
  · obtain ⟨t, hexec, ht⟩ := exec_runs (decodeOpcode s.beginStep.fetch.1) s.beginStep.fetch.2
    exact ⟨t, congrArg finish hexec, (h.fetch.trans ht).params_eq⟩

/-- Settles O7: the end of the step changes nothing that the poll depends on. -/
theorem irqLatchAtEndOfStep : Obligations.IrqLatchAtEndOfStep := by
  unfold Obligations.IrqLatchAtEndOfStep
  intro s t hmodel hj hstep
  obtain ⟨u, hu, hparams⟩ := step_ends_with_latch hj
  obtain rfl : u.endStep = t := Host.Outcome.next.inj (hu.symm.trans hstep)
  have hlatch : u.latchIrq = u.irqRequested := by
    unfold State.latchIrq
    rw [hparams, hmodel]
  exact hlatch

end Sys2Proof.Machine
end

section
/-! `Reset` (70_reset_and_hazards.md R531 to R533): what a warm reset of any machine leaves, and the state after the
first. -/

namespace Sys2Proof.Machine

/-! ### O52: the warm reset (R531, R533)

The latches are cleared and the devices reset; the rest is seven read cycles. -/

/-- The state the seven cycles of a warm reset begin in. -/
def State.resetStart (s : State) : State := { s.clearLatches with dev := s.clearLatches.dev.warmReset }

theorem State.warmReset_eq (s : State) : s.warmReset = s.resetStart.resetCycles := rfl

theorem State.resetStart_dmcIdle (s : State) : s.resetStart.DmcIdle := ⟨rfl, rfl⟩

theorem State.resetStart_keepsMemory (s : State) : KeepsMemory s s.resetStart := .of_mem rfl rfl rfl

theorem State.resetStart_ppu (s : State) : s.resetStart.dev.ppu = s.dev.ppu.warmReset := rfl

theorem Ppu.warmReset_rendering (p : Ppu) : p.warmReset.rendering = false := by
  simp [Ppu.rendering, Ppu.warmReset, Ppu.powerOn, bitOf]

theorem Ppu.warmReset_ctrl (p : Ppu) : p.warmReset.ctrl = 0#8 := rfl

/-- The mapper and the memories are not reset. -/
theorem State.resetStart_samePeek (s : State) : s.SamePeek s.resetStart := by
  have hquiet : s.dev.QuietSince s.resetStart.dev := ⟨fun _ _ _ => rfl, fun _ => rfl⟩
  exact fun a ha => hquiet.peek rfl ha

/-! ### The seven cycles -/

@[simp] theorem State.resetPush_cpu (s : State) : s.resetPush.cpu = { s.cpu with s := s.cpu.s - 1#8 } := by
  simp [State.resetPush]

theorem State.resetPush_keepsMemory (s : State) : KeepsMemory s s.resetPush :=
  s.read_keepsMemory (stackAddr s.cpu.s)

theorem takes_resetPush (s : State) : TakesIdle 1 s s.resetPush := (takes_dummyRead _ s).of_dev (State.setS_dev _ _)

/-- The cycles up to the last stack read. -/
def State.resetPushes (s : State) : State := s.dummyFetch.dummyFetch.resetPush.resetPush.resetPush

theorem State.resetPushes_cpu (s : State) : s.resetPushes.cpu = { s.cpu with s := s.cpu.s - 3#8 } := by
  have hs : s.cpu.s - 1#8 - 1#8 - 1#8 = s.cpu.s - 3#8 := by bv_omega
  simp only [State.resetPushes, State.resetPush_cpu, State.dummyFetch_cpu, hs]

theorem State.resetPushes_keepsMemory (s : State) : KeepsMemory s s.resetPushes :=
  have hfetches := s.dummyFetch_keepsMemory.trans s.dummyFetch.dummyFetch_keepsMemory
  ((hfetches.trans (State.resetPush_keepsMemory _)).trans (State.resetPush_keepsMemory _)).trans
    (State.resetPush_keepsMemory _)

theorem takes_resetPushes (s : State) : TakesIdle 5 s s.resetPushes :=
  have hfetches := (takes_dummyFetch s).trans (takes_dummyFetch _)
  ((hfetches.trans (takes_resetPush _)).trans (takes_resetPush _)).trans (takes_resetPush _)

/-- The last two cycles read the vector, with I set. -/
theorem State.resetCycles_eq (s : State) : s.resetCycles = s.resetPushes.maskIrq.loadVector resetVector := rfl

theorem takes_resetCycles (s : State) : TakesIdle 7 s s.resetCycles := by
  rw [s.resetCycles_eq]
  exact ((takes_resetPushes s).trans (takes_setP _ _)).trans (takes_loadVector resetVector s.resetPushes.maskIrq)

theorem State.resetCycles_keepsMemory (s : State) : KeepsMemory s s.resetCycles := by
  rw [s.resetCycles_eq]
  exact s.resetPushes_keepsMemory.trans (State.loadVector_maskIrq_keepsMemory _ _)

theorem State.resetCycles_lastReadAddr (s : State) : s.resetCycles.dev.lastReadAddr = 0xFFFD#16 := by
  rw [s.resetCycles_eq]
  rfl

section Resting
variable {d0 : Devices} {s : State} (h : d0.RestingSince s.dev)
include h

theorem resting_read (a : Word) : d0.RestingSince (s.read a).2.dev := resting_cpuRead h s.env a

theorem resting_resetPush : d0.RestingSince s.resetPush.dev := resting_read h _

theorem resting_dummyFetch : d0.RestingSince s.dummyFetch.dev := resting_read h _

theorem resting_loadVector (vec : Word) : d0.RestingSince (s.loadVector vec).dev := resting_read (resting_read h vec) _

theorem resting_maskIrq : d0.RestingSince s.maskIrq.dev := h

theorem resting_resetCycles : d0.RestingSince s.resetCycles.dev := by
  have hpushes := resting_resetPush (resting_resetPush (resting_resetPush (resting_dummyFetch (resting_dummyFetch h))))
  rw [s.resetCycles_eq]
  exact resting_loadVector (resting_maskIrq hpushes) resetVector

end Resting

section SamePeek
variable {s t : State} (h : s.SamePeek t)
include h

theorem State.SamePeek.resetPush : s.SamePeek t.resetPush := h.read _

theorem State.SamePeek.dummyFetch : s.SamePeek t.dummyFetch := h.read _

theorem State.SamePeek.maskIrq : s.SamePeek t.maskIrq := h

theorem State.SamePeek.resetPushes : s.SamePeek t.resetPushes := h.dummyFetch.dummyFetch.resetPush.resetPush.resetPush

theorem State.SamePeek.setPc (w : Word) : s.SamePeek (t.setPc w) := h

theorem State.SamePeek.loadVector (vec : Word) : s.SamePeek (t.loadVector vec) :=
  ((h.read vec).read (vec + 1#16)).setPc _

/-- The reset vector is a word of the cartridge. -/
theorem State.SamePeek.loadVector_reset_pc :
    (t.loadVector resetVector).cpu.pc = s.peekWord 0xFFFC#16 0xFFFD#16 :=
  congrArg₂ cat ((h.read 0xFFFC#16).read_value (a := 0xFFFD#16) (.inr (by decide)))
    (h.read_value (a := 0xFFFC#16) (.inr (by decide)))

theorem State.SamePeek.resetCycles : s.SamePeek t.resetCycles := by
  rw [t.resetCycles_eq]
  exact h.resetPushes.maskIrq.loadVector resetVector

/-- The registers after the seven cycles. -/
theorem State.SamePeek.resetCycles_cpu :
    t.resetCycles.cpu =
      { t.cpu with s := t.cpu.s - 3#8, p := t.cpu.p ||| 0x04#8, pc := s.peekWord 0xFFFC#16 0xFFFD#16 } := by
  rw [t.resetCycles_eq, State.loadVector_cpu, h.resetPushes.maskIrq.loadVector_reset_pc, State.maskIrq_cpu,
    State.resetPushes_cpu]
  rfl

end SamePeek

/-- Settles O52: seven reads of a machine at rest, whose PPUCTRL is 0, so that no NMI comes up. -/
theorem warmReset : Obligations.WarmReset := by
  unfold Obligations.WarmReset
  intro s
  have hpeek := s.resetStart_samePeek
  have hrest := Devices.RestingSince.refl (d := s.resetStart.dev) (s.dev.ppu.warmReset_rendering)
  obtain ⟨hcycles, hstall, -⟩ := takes_resetCycles s.resetStart s.resetStart_dmcIdle
  obtain ⟨-, -, -, hnmi, hjoy1, hjoy2⟩ := resting_resetCycles hrest
  have hlow : bitOf s.resetStart.dev.ppu.ctrl 7 = false := by
    rw [s.resetStart_ppu, Ppu.warmReset_ctrl]
    rfl
  have hclear : s.resetStart.resetCycles.dev.nmiRequest = false :=
    Bool.eq_false_iff.2 fun hrequest => Bool.false_ne_true (hnmi hlow hrequest)
  dsimp only
  rw [s.warmReset_eq]
  exact ⟨hpeek.resetCycles_cpu, hclear, hstall, State.resetCycles_lastReadAddr _,
    s.resetStart_keepsMemory.trans s.resetStart.resetCycles_keepsMemory, hpeek.resetCycles, hcycles, hjoy1, hjoy2⟩

/-! ### O51: the state after the first reset (R532) -/

/-- Every memory is empty, and an empty memory reads 0. -/
theorem reset_byteAt (l : Location) : State.reset.byteAt l = 0#8 := by
  obtain ⟨kind, index⟩ := l
  cases kind <;> rfl

/-- The blank cartridge's vector. -/
theorem reset_cpu :
    State.reset.cpu = ⟨0, 0, 0, 0xFD, 0x24, State.reset.peekWord 0xFFFC#16 0xFFFD#16, false, false⟩ := rfl

theorem reset_invariants : State.reset.StatusOk ∧ State.reset.MemoryOk ∧ State.reset.RasterOk ∧ State.reset.ApuOk := by
  have hlengths : State.reset.dev.apu.Ok :=
    ⟨fun _ => rfl, fun _ => rfl, fun _ => rfl, by decide, fun _ => rfl⟩
  refine ⟨rfl, ⟨rfl, rfl⟩, ⟨?_, ?_, ?_, ?_, rfl⟩, (apuOk_iff _).2 hlengths⟩
  all_goals decide

/-- Settles O51: the table's rows are the definition's fields. -/
theorem resetState : Obligations.ResetState := by
  unfold Obligations.ResetState
  refine ⟨⟨reset_cpu, rfl, rfl, rfl, rfl, rfl⟩, reset_byteAt, ?ppu, ?apu, ⟨rfl, rfl⟩, reset_invariants⟩
  case ppu => exact ⟨rfl, rfl, rfl, rfl, rfl, rfl, rfl, rfl, rfl, rfl, rfl, rfl, rfl, rfl⟩
  case apu => exact ⟨rfl, rfl, rfl, rfl, rfl, rfl, rfl, rfl, rfl⟩

end Sys2Proof.Machine
end
